-- ==== Sys2Proof/Word.lean ====
section
/-! DEFINITION. The plain data KRAKEN-TX works on: the 32-bit register word, the tri-state symbols, line levels and
the named sets of the spec. Codes and text forms of these names stand in Decode.lean and Machine/Flags.lean. -/

namespace Sys2Proof

/-- A host register, a command word (R21, R100). -/
abbrev Word := BitVec 32

/-- A TriStateSymbol: "one of `Zero`, `One`, `Float`" (R23, R90). -/
inductive Symbol where
  | zero
  | one
  | float
deriving DecidableEq, Repr, Inhabited

/-- The primitives the sequencer executes: a symbol, or Sync, which is no symbol (R94, R111). -/
inductive Prim where
  | sym (x : Symbol)
  | sync
deriving DecidableEq, Repr

/-- A line level: `High` (1) or `Low` (0) (R14, R99). -/
inductive Level where
  | low
  | high
deriving DecidableEq, Repr

/-- The target status of a device, exactly one of `on`, `off` (R7, R99). -/
inductive Status where
  | off
  | on
deriving DecidableEq, Repr

/-- The vendor families that have an encoding rule (R95). -/
inductive Family where
  | elro
  | it
  | itPar
  | dario
deriving DecidableEq, Repr

end Sys2Proof
end

