-- ==== Sys2Proof/Config.lean ====
section
/-! DEFINITION. The OPEN parameters of the implementation (R8, R11): constants without a body, so that no proof can
see a value, and the configurable encoder tables, which have a default. The constraints the spec states of them are built
in by the functions of Machine/Tables.lean. The parameters to which the spec gives a value stand in Machine/Tables.lean. -/

namespace Sys2Proof

/-- `DARIO_ON`: 8 symbols, nothing else assumed (R8, R144, U6). DESIGN CHOICE, safe: left open (log 19). -/
opaque Config.darioOn : Fin 8 → Symbol

/-- `DARIO_OFF`: 8 symbols, nothing else assumed, not even that it differs from `DARIO_ON` (R8, R144, U6). DESIGN
CHOICE, safe: left open (log 19). -/
opaque Config.darioOff : Fin 8 → Symbol

/-- What is configurable of the encoder tables: the entries that the source does not give (R8, R137, R141, U9). An entry
is any four, or three, symbols; the source's entries are added by `itTabOf` and `parMOf`, so no configuration can change
them. The machine holds a configuration in State (log 33); the default is `defaultTables`. -/
structure EncTables where
  /-- `IT_TAB[2..14]` (R137). -/
  itOpen : Vector (Vector Symbol 4) 13
  /-- `PAR_M[1..3]` (R141). -/
  parMOpen : Vector (Vector Symbol 4) 3
  /-- `PAR_S[0..2]` (R141). -/
  parSOpen : Vector (Vector Symbol 3) 3
deriving DecidableEq, Repr

/-- `UNIT_US(2)` less one: the spec says only that `UNIT_US(2)` is an integer of at least 1 (R8, U8). DESIGN CHOICE,
safe: left open (log 20). -/
opaque Config.unitUs2Pred : Nat

/-- `UNIT_US(3)` less one (R8, U8). DESIGN CHOICE, safe: left open (log 20). -/
opaque Config.unitUs3Pred : Nat

/-- `F_CLK_HZ / 10^6`: the spec says only that `F_CLK_HZ` is a multiple of 1 000 000 (R8). DESIGN CHOICE, safe: left
open (log 20). -/
opaque Config.clkMHz : Nat

/-- `JITTER_US`: the tolerated lateness of a wait, in microseconds (R8, R169, U5). DESIGN CHOICE, safe: left open.
DESIGN CHOICE, unsafe: a whole number of microseconds, where the spec does not say that it is one (log 21). -/
opaque Config.jitterUs : Nat

/-- The real lateness of the n-th wait, before it is bounded by `JITTER_US` (R11, R169, U5). DESIGN CHOICE, safe: left
open. DESIGN CHOICE, unsafe: a whole number of microseconds, where the spec does not say that it is one (log 21). -/
opaque Config.lateness : Nat → Nat

end Sys2Proof
end

