-- ==== Sys2Proof/Machine/Tables.lean ====
section
/-! DEFINITION. The constant tables of the hardware (R2, R20): the encoder tables, the waveform table and the protocol
table, with the values the spec prints. -/

namespace Sys2Proof.Machine

open Sys2Proof.Symbol in
/-- The default of `IT_TAB`, the Intertechno nibble table, as R137 prints it. Entries 0, 1 and 15 are the source's. PRESUMED, unsafe:
entries 2 to 14 are the default of decision D10 (log 17). -/
def itTab : Vector (Vector Symbol 4) 16 :=
  #v[#v[zero, zero, zero, zero], #v[float, zero, zero, zero], #v[zero, float, zero, zero], #v[float, float, zero, zero],
    #v[zero, zero, float, zero], #v[float, zero, float, zero], #v[zero, float, float, zero], #v[float, float, float, zero],
    #v[zero, zero, zero, float], #v[float, zero, zero, float], #v[zero, float, zero, float], #v[float, float, zero, float],
    #v[zero, zero, float, float], #v[float, zero, float, float], #v[zero, float, float, float], #v[float, float, float, float]]

open Sys2Proof.Symbol in
/-- The default of `PAR_M` (R141). Entry 0 is the source's. PRESUMED, unsafe: entries 1 to 3 are the default of decision D11 (log 18). -/
def parM : Vector (Vector Symbol 4) 4 :=
  #v[#v[one, float, float, float], #v[float, one, float, float], #v[float, float, one, float], #v[float, float, float, one]]

open Sys2Proof.Symbol in
/-- The default of `PAR_S` (R141). PRESUMED, unsafe: all of it is the default of decision D11 (log 18). -/
def parS : Vector (Vector Symbol 3) 3 :=
  #v[#v[one, float, float], #v[float, one, float], #v[float, float, one]]

/-- The default configuration: the filling of R137 and R141 (D10, D11; log 17, log 18). -/
def defaultTables : EncTables where
  itOpen := Vector.ofFn fun k : Fin 13 => itTab[k.val + 2]
  parMOpen := Vector.ofFn fun k : Fin 3 => parM[k.val + 1]
  parSOpen := parS

open Sys2Proof.Symbol in
/-- `IT_TAB` of a configuration: the source's entries 0, 1 and 15, "A→`0000`, B→`F000`, … P→`FFFF`", and the
configured ones between (R137, U9). -/
def itTabOf (t : EncTables) : Vector (Vector Symbol 4) 16 :=
  Vector.ofFn fun k : Fin 16 =>
    if k.val = 0 then #v[zero, zero, zero, zero]
    else if k.val = 1 then #v[float, zero, zero, zero]
    else if h : 2 ≤ k.val ∧ k.val < 15 then t.itOpen[k.val - 2]
    else #v[float, float, float, float]

open Sys2Proof.Symbol in
/-- `PAR_M` of a configuration: the source's entry 0, "A→`1FFF`", and the configured ones after it (R141, U9). -/
def parMOf (t : EncTables) : Vector (Vector Symbol 4) 4 :=
  Vector.ofFn fun k : Fin 4 =>
    if h : 1 ≤ k.val then t.parMOpen[k.val - 1] else #v[one, float, float, float]

/-- `PAR_S` of a configuration: every entry is configured (R141, U9). -/
def parSOf (t : EncTables) : Vector (Vector Symbol 3) 3 := t.parSOpen

/-- The configured entries keep the alphabets of R136, R140 and R148: no `One` in `IT_TAB`, no `Zero` in `PAR_M` and
`PAR_S`. -/
abbrev AlphabetKept (t : EncTables) : Prop :=
  (∀ (k : Fin 13) (j : Fin 4), t.itOpen[k][j] ≠ .one) ∧ (∀ (k : Fin 3) (j : Fin 4), t.parMOpen[k][j] ≠ .zero) ∧
  (∀ k j : Fin 3, t.parSOpen[k][j] ≠ .zero)

/-- The Dario status pattern, open (R144, U6; log 19). -/
def darioPattern : Status → Vector Symbol 8
  | .on => Vector.ofFn Config.darioOn
  | .off => Vector.ofFn Config.darioOff

/-- One row of the protocol table (R166). -/
structure ProtocolRow where
  /-- The base pulse unit in microseconds. -/
  unitUs : Nat
  /-- The low units of Sync. -/
  syncRatio : Nat
  /-- The default repeat count. -/
  defaultRepeat : BitVec 16
deriving DecidableEq, Repr

/-- The protocol table (R8, R166). Protocol ids without a row are unsupported (R98). DESIGN CHOICE, unsafe: the
source's literals 31, 10, 71, 350, 10 are taken as stated (R9, U18; log 22). UNIT_US(2) and UNIT_US(3) are open and at
least 1 (log 20). -/
def protocolRow (p : BitVec 4) : Option ProtocolRow :=
  if p = 1 then some { unitUs := 350, syncRatio := 31, defaultRepeat := 10 }
  else if p = 2 then some { unitUs := Config.unitUs2Pred + 1, syncRatio := 10, defaultRepeat := 10 }
  else if p = 3 then some { unitUs := Config.unitUs3Pred + 1, syncRatio := 71, defaultRepeat := 10 }
  else none

/-- `PROTO in {1, 2, 3}` (R98): the protocol has a row. -/
def protoSupported (p : BitVec 4) : Bool := (protocolRow p).isSome

/-- `F_CLK_HZ`, a multiple of 1 000 000 (R8; log 20). -/
def clkHz : Nat := Config.clkMHz * 1000000

/-- `wf`: the two (mark, space) pairs of a symbol, in units (R161, R162, R163). -/
def waveformOf : Symbol → List (Nat × Nat)
  | .zero => [(1, 3), (1, 3)]
  | .one => [(3, 1), (3, 1)]
  | .float => [(1, 3), (3, 1)]

/-- `wf_sync`: the one pair of Sync (R164). -/
def waveformOfSync (row : ProtocolRow) : List (Nat × Nat) := [(1, row.syncRatio)]

/-- `pairs(prim)` (R188). -/
def pairsOf (row : ProtocolRow) : Prim → List (Nat × Nat)
  | .sym x => waveformOf x
  | .sync => waveformOfSync row

end Sys2Proof.Machine
end

