-- ==== Sys2Proof/Syntax.lean ====
section
/-! DEFINITION. The instructions: one constructor for each row of spec/opcode_table.json (R18: a command word, or a
primitive executed by the sequencer). -/

namespace Sys2Proof

/-- The instructions of KRAKEN-TX. Reserved bits of a command word, and the `REPEAT` bits of a `TX`, are no operands:
"two command words that differ only in reserved bits are the same command" (R106). -/
inductive Instr where
  /-- `NOP` (R180). -/
  | nop
  /-- `ENC.ELRO`, FAM 0 (R133). -/
  | encElro (proto : BitVec 4) (st : Status) (master slave : BitVec 8)
  /-- `ENC.IT`, FAM 1 (R136). -/
  | encIt (proto : BitVec 4) (st : Status) (master slave : BitVec 8)
  /-- `ENC.ITPAR`, FAM 2 (R140). -/
  | encItPar (proto : BitVec 4) (st : Status) (master slave : BitVec 8)
  /-- `ENC.DARIO`, FAM 3 (R143). -/
  | encDario (proto : BitVec 4) (st : Status) (master slave : BitVec 8)
  /-- `ENC.UNDEF`, the row of FAM 4 to 7 (R146). DEDUCED, safe: the table has two rows of this mnemonic (log 26). -/
  | encUndefLow (fam proto : BitVec 4) (st : Status) (master slave : BitVec 8)
  /-- `ENC.UNDEF`, the row of FAM 8 to 15 (R146). -/
  | encUndefHigh (fam proto : BitVec 4) (st : Status) (master slave : BitVec 8)
  /-- `TX` (R181). -/
  | tx (proto : BitVec 4)
  /-- `TXR` (R185). -/
  | txr (proto : BitVec 4) (rep : BitVec 16)
  /-- `CANCEL` (R184). -/
  | cancel
  /-- The primitive `ZERO` (R161). -/
  | zero
  /-- The primitive `ONE` (R162). -/
  | one
  /-- The primitive `FLOAT` (R163). -/
  | float
  /-- The primitive `SYNC` (R164). -/
  | sync
deriving DecidableEq, Repr

end Sys2Proof
end

