-- ==== Sys2Proof/Machine/State.lean ====
section
/-! DEFINITION. The state of KRAKEN-TX (R20, R43, R200, R76), the model's own fields that hold its inputs and its
trace, the reasons a step can stop, and the state after reset. -/

namespace Sys2Proof.Machine

/-- The error codes of `E_ERR` and `T_ERR`, a closed set (R96, R230). -/
inductive ErrCode where
  | ok
  | unsupportedVendor
  | unsupportedProtocol
  | unsupportedAddress
  | lineWriteFailed
  | cancelled
deriving DecidableEq, Repr

/-- `STATE` (R30). -/
inductive SeqState where
  | idle
  | exporting
  | framing
  | repeating
deriving DecidableEq, Repr

/-- `SUB`: the next event of the phase is its line write, or its timed wait (R36). -/
inductive Sub where
  | write
  | wait
deriving DecidableEq, Repr

/-- The answer LINE gives to a `set_line` request (R11, R200). -/
inductive Answer where
  | ok
  | error
deriving DecidableEq, Repr

/-- The events of a trace (R15). -/
inductive Event where
  /-- `Export`. -/
  | exported
  /-- `Set(l, ans)`. -/
  | set (l : Level) (ans : Answer)
  /-- `Wait(k, p)`: a wait of k units under protocol p. -/
  | wait (k : Nat) (p : BitVec 4)
deriving DecidableEq, Repr

/-- A codeword register: a length and 31 slots of 2 bits (R24). A slot may hold the reserved code 3 (R26). -/
structure Codeword where
  len : BitVec 5
  sym : Vector (BitVec 2) 31
deriving DecidableEq, Repr

/-- The fields of `ENCSTAT` (R27); `which` is 1 when the slave is the offending value. -/
structure EncStatus where
  done : Bool
  err : ErrCode
  which : Bool
  val : BitVec 8
deriving DecidableEq, Repr

/-- The transmit status `T_DONE`, `T_ERR`, `T_VAL` (R34). -/
structure TxStatus where
  done : Bool
  err : ErrCode
  val : BitVec 8
deriving DecidableEq, Repr

/-- The position (`R`, `I`, `PH`, `SUB`), this hardware's program counter (R36). -/
structure Position where
  r : BitVec 16
  i : BitVec 5
  ph : BitVec 2
  sub : Sub
deriving DecidableEq, Repr

/-- The shadow (`T_CW`, `T_PROTO`, `T_REP`): the sequencer's copy of its operands (R38). -/
structure Shadow where
  cw : Codeword
  proto : BitVec 4
  rep : BitVec 16
deriving DecidableEq, Repr

/-- What HOST's program is made of: the two accesses of the register port (R61, R62) and the two directives of R110
that loop or branch on a value read. DESIGN CHOICE, safe: HOST is an input of the machine (log 28). -/
inductive HostOp where
  /-- `rd`: MemRead(k, 1). -/
  | read (k : BitVec 4)
  /-- `wr`: MemWrite(k, 1, v); with k = 0, a command. -/
  | write (k : BitVec 4) (v : Word)
  /-- `wait.tx`: MemRead(5, 1) until BUSY = 0. -/
  | waitTx
  /-- The test of `send.<fam>`: MemRead(4, 1), and the next n items only if E_ERR = 0. -/
  | ifEncOk (n : Nat)
deriving DecidableEq, Repr

/-- Whose turn it is: the agents of R10, the reset input (R270) and a clock cycle of a running wait (R41). -/
inductive Turn where
  | host
  | seq
  | line
  /-- The pin `cancel_i` is driven to 1 (`true`) or 0. -/
  | cancelPin (level : Bool)
  /-- A cycle with `rst` = 1. -/
  | rst
  /-- A clock cycle passes. -/
  | clock
deriving DecidableEq, Repr

/-- Everything the machine holds. -/
structure State where
  /-- CW (R24). -/
  cw : Codeword
  /-- ENCSTAT (R27). -/
  encStat : EncStatus
  /-- STATE (R30). -/
  seqState : SeqState
  /-- EXPORTED, which is the output line_en (R31, R201). -/
  exported : Bool
  /-- LINE (R32). -/
  line : Level
  /-- CANCEL_PEND (R33). -/
  cancelPend : Bool
  /-- T_DONE, T_ERR, T_VAL (R34). -/
  txStat : TxStatus
  /-- The position (R36). -/
  pos : Position
  /-- The shadow (R38). -/
  shadow : Shadow
  /-- WRCNT (R40). -/
  wrcnt : BitVec 32
  /-- TMR, in clock cycles (R41). DESIGN CHOICE, safe: a natural number, since the width is only "sufficient" (log 7). -/
  tmr : Nat
  /-- The output sl_req: a request is outstanding (R200). -/
  slReq : Bool
  /-- The output sl_val: the level of the request (R200). DESIGN CHOICE, unsafe: kept between requests (log 13). -/
  slVal : Level
  /-- The TX or TXR held on the register port, that is reg_ready = 0 (R76, R183, R270). DESIGN CHOICE, safe (log 5). -/
  held : Option Instr
  /-- The output reg_rdata: the word the last host read returned (R60, R61). DESIGN CHOICE, unsafe at reset (log 12). -/
  regRdata : Word
  /-- The level of the input cancel_i (R184). -/
  cancelI : Bool
  /-- MODEL: the configuration of the encoder tables, a parameter of the step relation that nothing writes (R8, R11, R137,
  R141, U9). DESIGN CHOICE, safe (log 33). -/
  tables : EncTables
  /-- MODEL: the interleaving still to come (R11, R74). DESIGN CHOICE (log 1, log 2). -/
  turns : List Turn
  /-- MODEL: what HOST will still issue (R10). DESIGN CHOICE (log 1). -/
  hostProg : List HostOp
  /-- MODEL: the answers LINE will give, none meaning that it does not answer (R11, U2, U3). DESIGN CHOICE (log 1, 3). -/
  answers : List Answer
  /-- MODEL: the trace of the transmission (R15). DESIGN CHOICE (log 11). -/
  trace : List Event
  /-- MODEL: the physical line's level where the spec fixes it; `none` is any value (R283, R43, U1, U15).
  DESIGN CHOICE, safe where it is `none`; a level kept over a reset, until line_en rises, is R272's (log 10). -/
  pin : Option Level
deriving DecidableEq, Repr

/-- Why the machine stops. The hardware itself never stops with a fault (R106, R230): each of these stands for a
sequencer state outside the spec's domain, which no run from reset reaches. DESIGN CHOICE, safe (log 16). -/
inductive Fault where
  /-- The position names a phase that the primitive does not have, a cell "none" of R188's table. Raised by the write
  and the wait of a primitive and by LINE's answer. Safe: the model stops. -/
  | phaseOutOfTable
  /-- `T_PROTO` has no row in the protocol table (R166) although a transmission runs (R182 tests it). Raised by the
  Sync wait and by LINE's answer. Safe: the model stops. -/
  | protocolOutOfTable
  /-- The shadow holds the reserved symbol code at `I` (R93 is tested at acceptance). Raised by the fetch of a
  primitive and by LINE's answer. Safe: the model stops. -/
  | shadowSymbolReserved
deriving DecidableEq, Repr

/-- Why an instruction has no meaning. -/
inductive Refusal where
  /-- Raised by an arm of `exec` for an instruction not modelled yet. Safe. -/
  | notModelled (mnemonic : String)
  /-- A TX or TXR that would be accepted while a slot of CW below CW.len holds the reserved code 3: "a model refuses
  the command (gives it no meaning)" (R26, R93, U10). Raised by TX and TXR. Safe: the model stops. -/
  | reservedSymbol
deriving DecidableEq, Repr

/-- The empty codeword of reset: length 0, all slots `Zero` (R43). -/
def Codeword.empty : Codeword := { len := 0, sym := Vector.replicate 31 0 }

/-- The state after reset: every value of R43. The encoder tables have their default filling (R137, R141; log 17, log 18,
log 33). The inputs are at their inactive levels and the model's own lists are
empty: no program is invented (log 23, log 24). -/
def State.reset : State where
  cw := Codeword.empty
  encStat := { done := false, err := .ok, which := false, val := 0 }
  seqState := .idle
  exported := false
  line := .low
  cancelPend := false
  txStat := { done := false, err := .ok, val := 0 }
  pos := { r := 0, i := 0, ph := 0, sub := .write }
  shadow := { cw := Codeword.empty, proto := 0, rep := 0 }
  wrcnt := 0
  tmr := 0
  slReq := false
  slVal := .low
  held := none
  regRdata := 0
  cancelI := false
  tables := defaultTables
  turns := []
  hostProg := []
  answers := []
  trace := []
  pin := none

end Sys2Proof.Machine
end

