-- ==== Sys2Proof/Machine/Flags.lean ====
section
/-! DEFINITION. The flags and status words: the codes of the named sets, BUSY, and the packing of every status
register (R27, R30, R35, R37, R96, R97). The hardware has no arithmetic condition codes (R29). -/

namespace Sys2Proof.Machine

/-- The 4-bit error codes (R96). -/
def errBits : ErrCode → BitVec 4
  | .ok => 0
  | .unsupportedVendor => 1
  | .unsupportedProtocol => 2
  | .unsupportedAddress => 3
  | .lineWriteFailed => 4
  | .cancelled => 5

/-- The 2-bit state codes (R97). -/
def stateBits : SeqState → BitVec 2
  | .idle => 0
  | .exporting => 1
  | .framing => 2
  | .repeating => 3

/-- The code of a level: 1 = High (R99). -/
def levelBit : Level → BitVec 1
  | .low => 0
  | .high => 1

/-- The code of SUB: 0 = Write, 1 = Wait (R36). -/
def subBit : Sub → BitVec 1
  | .write => 0
  | .wait => 1

/-- BUSY = (STATE ≠ Idle), no storage of its own (R30). -/
def State.busy (s : State) : Bool := decide (s.seqState ≠ .idle)

/-- The word of `ENCSTAT` (R27). -/
def encStatWord (e : EncStatus) : Word :=
  (0 : BitVec 8) ++ e.val ++ (0 : BitVec 3) ++ BitVec.ofBool e.which ++ errBits e.err ++ (0 : BitVec 4) ++ BitVec.ofBool e.done ++ (0 : BitVec 3)

/-- The word of `TXSTAT` (R35). -/
def txStatWord (s : State) : Word :=
  (0 : BitVec 8) ++ s.txStat.val ++ (0 : BitVec 4) ++ errBits s.txStat.err ++ (0 : BitVec 1) ++ BitVec.ofBool s.cancelPend ++ levelBit s.line ++
    BitVec.ofBool s.exported ++ BitVec.ofBool s.txStat.done ++ BitVec.ofBool s.busy ++ stateBits s.seqState

/-- The word of `TXPOS` (R37). -/
def txPosWord (p : Position) : Word :=
  (0 : BitVec 8) ++ subBit p.sub ++ p.ph ++ p.i ++ p.r

/-- BUSY in a word read from `TXSTAT` (R35). -/
def busyOfWord (v : Word) : Bool := v.getLsbD 2

/-- E_ERR in a word read from `ENCSTAT` (R27). -/
def encErrOfWord (v : Word) : BitVec 4 := v.extractLsb' 8 4

/-- The output line_en (R201). -/
def State.lineEn (s : State) : Bool := s.exported

/-- The output reg_ready: low while a TX or TXR is held (R76, R183). DESIGN CHOICE, unsafe: high whenever nothing is held,
also after reset and while no access is in progress, where the spec gives no level (log 31). -/
def State.regReady (s : State) : Bool := s.held.isNone

end Sys2Proof.Machine
end

