-- ==== Sys2Proof/WellFormed.lean ====
section
/-! DEFINITION. Which instructions have an encoding: every field fits by its type, so the one check is the range of
FAM in the two rows of `ENC.UNDEF` (R146). -/

namespace Sys2Proof

/-- The range of `FAM` that each row of `ENC.UNDEF` encodes (R146). Every other instruction is well formed: a field
outside its table (R104, R107) is a legal command with a defined error. -/
def Instr.wellFormed : Instr → Bool
  | .encUndefLow fam _ _ _ _ => decide (4 ≤ fam.toNat ∧ fam.toNat ≤ 7)
  | .encUndefHigh fam _ _ _ _ => decide (8 ≤ fam.toNat)
  | .nop => true
  | .encElro _ _ _ _ => true
  | .encIt _ _ _ _ => true
  | .encItPar _ _ _ _ => true
  | .encDario _ _ _ _ => true
  | .tx _ => true
  | .txr _ _ => true
  | .cancel => true
  | .zero => true
  | .one => true
  | .float => true
  | .sync => true

/-- An instruction that some word encodes. -/
abbrev WellFormed (i : Instr) : Prop := i.wellFormed = true

end Sys2Proof
end

