-- ==== Sys2Proof/Decode.lean ====
section
/-! DEFINITION. The decoder of command words and of the 3-bit primitive select, total, rejecting by name; after it the
encoder; and the codes and characters of symbols. Written from 30_encoding.md R90 to R111. -/

namespace Sys2Proof

/-- The 2-bit code of a symbol in a register slot (R90). -/
def symbolCode : Symbol → BitVec 2
  | .zero => 0b00
  | .one => 0b01
  | .float => 0b10

/-- The symbol a 2-bit code stands for; `0b11` is reserved (R90, R93). -/
def symbolOfCode (c : BitVec 2) : Option Symbol :=
  if c = 0b00 then some .zero
  else if c = 0b01 then some .one
  else if c = 0b10 then some .float
  else none

/-- The text character of a symbol (R91, R92). -/
def charOf : Symbol → Char
  | .zero => '0'
  | .one => '1'
  | .float => 'F'

/-- The symbol of a text character, defined on exactly three characters (R92, U14). -/
def symOf (c : Char) : Option Symbol :=
  if c = '0' then some .zero
  else if c = '1' then some .one
  else if c = 'F' then some .float
  else none

/-- The text form of a codeword (R91). -/
def textOf (w : List Symbol) : List Char := w.map charOf

/-- Parsing the text form; refused if one character is no symbol (R92, U14). -/
def parseText : List Char → Option (List Symbol)
  | [] => some []
  | c :: cs =>
    match symOf c, parseText cs with
    | some x, some xs => some (x :: xs)
    | _, _ => none

/-- The status bit ST: 1 is on (R99). -/
def statusBit : Status → BitVec 1
  | .off => 0
  | .on => 1

/-- The status that an ST bit stands for (R99). -/
def statusOfBit (b : BitVec 1) : Status := if b = 1 then .on else .off

/-- Why a code is no instruction. -/
inductive DecodeError where
  /-- A command word whose OP is 0x5 to 0xF: "the command word is ignored" (R106). Raised by `decodeCommand`; HOST's
  write of it then changes nothing (safe: that is the rule). -/
  | reservedOpcode (op : BitVec 4)
  /-- A primitive select that holds the reserved symbol code `0b11` (R93, R111). Raised by `decodePrim`; safe. -/
  | reservedSymbol
deriving DecidableEq, Repr

/-- What an instruction is fetched as: a command word from CMD (R100), or the 3-bit primitive select (R111). -/
inductive Code where
  | command (w : Word)
  | select (b : BitVec 3)
deriving DecidableEq, Repr

/-- Decoding a command word by OP, and an `ENC` further by FAM (R100 to R103, R108). -/
def decodeCommand (w : Word) : Except DecodeError Instr :=
  let op := w.extractLsb' 0 4
  let fam := w.extractLsb' 4 4
  let proto := w.extractLsb' 8 4
  let st := statusOfBit (w.extractLsb' 12 1)
  let master := w.extractLsb' 16 8
  let slave := w.extractLsb' 24 8
  if op = 0x0 then .ok .nop
  else if op = 0x1 then
    if fam = 0 then .ok (.encElro proto st master slave)
    else if fam = 1 then .ok (.encIt proto st master slave)
    else if fam = 2 then .ok (.encItPar proto st master slave)
    else if fam = 3 then .ok (.encDario proto st master slave)
    else if fam.toNat < 8 then .ok (.encUndefLow fam proto st master slave)
    else .ok (.encUndefHigh fam proto st master slave)
  else if op = 0x2 then .ok (.tx proto)
  else if op = 0x3 then .ok (.txr proto (w.extractLsb' 16 16))
  else if op = 0x4 then .ok .cancel
  else .error (.reservedOpcode op)

/-- Decoding the primitive select: bit 2 is Sync, whatever the other bits; else the symbol's code (R111). -/
def decodePrim (b : BitVec 3) : Except DecodeError Instr :=
  if b.extractLsb' 2 1 = 1 then .ok .sync
  else
    match symbolOfCode (b.extractLsb' 0 2) with
    | some .zero => .ok .zero
    | some .one => .ok .one
    | some .float => .ok .float
    | none => .error .reservedSymbol

/-- The decoder on both kinds of code. -/
def decode : Code → Except DecodeError Instr
  | .command w => decodeCommand w
  | .select b => decodePrim b

/-- Format E (R101), reserved bits written 0. -/
def formatE (fam proto : BitVec 4) (st : Status) (master slave : BitVec 8) : Word :=
  slave ++ master ++ (0 : BitVec 3) ++ statusBit st ++ proto ++ fam ++ (1 : BitVec 4)

/-- Format T (R102), reserved bits written 0. -/
def formatT (op proto : BitVec 4) (rep : BitVec 16) : Word :=
  rep ++ (0 : BitVec 4) ++ proto ++ (0 : BitVec 4) ++ op

/-- Format C (R103), reserved bits written 0. -/
def formatC (op : BitVec 4) : Word := (0 : BitVec 28) ++ op

/-- The primitive select of a symbol (R111). -/
def selectOf (x : Symbol) : BitVec 3 := (0 : BitVec 1) ++ symbolCode x

/-- The code of an instruction, as "the assembler writes reserved bits as 0" (R100 to R103, R109, R111). -/
def encode : Instr → Code
  | .nop => .command (formatC 0x0)
  | .encElro p st m s => .command (formatE 0 p st m s)
  | .encIt p st m s => .command (formatE 1 p st m s)
  | .encItPar p st m s => .command (formatE 2 p st m s)
  | .encDario p st m s => .command (formatE 3 p st m s)
  | .encUndefLow f p st m s => .command (formatE f p st m s)
  | .encUndefHigh f p st m s => .command (formatE f p st m s)
  | .tx p => .command (formatT 0x2 p 0)
  | .txr p n => .command (formatT 0x3 p n)
  | .cancel => .command (formatC 0x4)
  | .zero => .select (selectOf .zero)
  | .one => .select (selectOf .one)
  | .float => .select (selectOf .float)
  | .sync => .select 0b100

/-- The code that a row's bits stand for: the table's rows are 32-bit command words, and 3-bit primitive selects.
DESIGN CHOICE, safe: fewer than four bits are a primitive select, anything else a command word (log 25). -/
def codeOfTableWord (nbits w : Nat) : Code :=
  if nbits < 4 then .select (BitVec.ofNat 3 w) else .command (BitVec.ofNat 32 (w % 2 ^ nbits))

/-- The instruction the decoder reads from a row's bits. -/
def decodeTableWord (nbits w : Nat) : Option Instr :=
  match decode (codeOfTableWord nbits w) with
  | .ok i => some i
  | .error _ => none

end Sys2Proof
end

