-- ==== Sys2Proof/Machine/Operands.lean ====
section
/-! DEFINITION. Operands: address strings, letters and integers of the encoder (R64, R104, R132), symbol slots and the
packing of the codeword register (R24, R62, R65), the current primitive of the sequencer and its phases (R111, R188). -/

namespace Sys2Proof.Machine

/-- The bit string of n characters held in a field, leftmost character first: `b[i] = f[n-1-i]` (R12, R64). -/
def addrBits (n : Nat) (f : BitVec 8) : List Bool := (List.range n).map fun i => f.getLsbD (n - 1 - i)

/-- `bitmap`: address bit 0 is Float, address bit 1 is Zero (R134). -/
def bitmap : Bool → Symbol
  | false => .float
  | true => .zero

/-- "In table iff" for MASTER (R104, R132). -/
def masterInTable (f : Family) (m : BitVec 8) : Bool :=
  match f with
  | .elro => decide (m.toNat ≤ 31)
  | .it => decide (m.toNat ≤ 15)
  | .itPar => decide (m.toNat ≤ 3)
  | .dario => decide (m.toNat ≤ 63)

/-- "In table iff" for SLAVE (R104, R132). -/
def slaveInTable (f : Family) (s : BitVec 8) : Bool :=
  match f with
  | .elro => decide (s.toNat ≤ 31)
  | .it => decide (1 ≤ s.toNat ∧ s.toNat ≤ 16)
  | .itPar => decide (1 ≤ s.toNat ∧ s.toNat ≤ 3)
  | .dario => decide (s.toNat ≤ 63)

/-- Entry i of an encoder table. No entry stands outside the table, and the frame of R131 tests the address before. -/
def tableEntry {n k : Nat} (tab : Vector (Vector Symbol k) n) (i : Nat) : List Symbol :=
  match tab[i]? with
  | some v => v.toList
  | none => []

/-- Slot i of a codeword register, for i in 0..30 (R24). There is no slot 31, and no operation reads one. -/
def Codeword.slot (c : Codeword) (i : Nat) : BitVec 2 :=
  match c.sym[i]? with
  | some x => x
  | none => 0

/-- The register that holds the codeword w: its length, its codes, and 0 in every slot above (R131). -/
def codewordOf (w : List Symbol) : Codeword where
  len := BitVec.ofNat 5 w.length
  sym := Vector.ofFn fun i : Fin 31 =>
    match w[i.val]? with
    | some x => symbolCode x
    | none => 0

/-- The codes of the codeword held: slots 0 to len - 1 (R24). -/
def Codeword.codes (c : Codeword) : List (BitVec 2) := (List.range c.len.toNat).map c.slot

/-- A slot below the length holds the reserved code 3 (R26, R93). -/
def Codeword.hasReserved (c : Codeword) : Bool := c.codes.any fun x => (symbolOfCode x).isNone

/-- The codeword held, where every slot of it is a symbol (R24, R26). -/
def Codeword.symbols (c : Codeword) : Option (List Symbol) := c.codes.mapM symbolOfCode

/-- n slots packed into a word, slot i at bits [2i+1:2i] (R65). -/
def packSlots : (n : Nat) → (Nat → BitVec 2) → BitVec (2 * n)
  | 0, _ => 0
  | n + 1, f => packSlots n (fun i => f (i + 1)) ++ f 0

/-- `CW_LO` (R21, R65). -/
def cwLoWord (c : Codeword) : Word := packSlots 16 c.slot

/-- `CW_HI`, bits 31:30 read 0 (R21, R65). -/
def cwHiWord (c : Codeword) : Word := (0 : BitVec 2) ++ packSlots 15 fun i => c.slot (i + 16)

/-- `CW_LEN`, bits 31:5 read 0 (R21). -/
def cwLenWord (c : Codeword) : Word := (0 : BitVec 27) ++ c.len

/-- A write of `CW_LEN` (R62). -/
def Codeword.writeLen (c : Codeword) (v : Word) : Codeword := { c with len := v.extractLsb' 0 5 }

/-- A write of `CW_LO`: slots 0 to 15 (R62). -/
def Codeword.writeLo (c : Codeword) (v : Word) : Codeword :=
  { c with sym := Vector.ofFn fun i : Fin 31 => if i.val < 16 then v.extractLsb' (2 * i.val) 2 else c.slot i.val }

/-- A write of `CW_HI`: slots 16 to 30; bits 31:30 are ignored (R62). -/
def Codeword.writeHi (c : Codeword) (v : Word) : Codeword :=
  { c with sym := Vector.ofFn fun i : Fin 31 => if i.val < 16 then c.slot i.val else v.extractLsb' (2 * (i.val - 16)) 2 }

/-- The primitive select at the position: Sync unless I < T_CW.len, then the code of T_CW.sym[I] (R111, R188). -/
def primSelect (s : State) : BitVec 3 :=
  if s.pos.i < s.shadow.cw.len then (0 : BitVec 1) ++ s.shadow.cw.slot s.pos.i.toNat else 0b100

/-- The current primitive (R188); none where the slot holds the reserved code. -/
def currentPrim (s : State) : Option Prim :=
  if s.pos.i < s.shadow.cw.len then (symbolOfCode (s.shadow.cw.slot s.pos.i.toNat)).map .sym else some .sync

/-- `last(prim)`: 3 for a symbol, 1 for Sync (R188). -/
def lastPhase : Prim → BitVec 2
  | .sym _ => 3
  | .sync => 1

/-- `level(PH)`: High if PH is even, Low if odd (R188). -/
def levelOf (ph : BitVec 2) : Level := if ph.getLsbD 0 then .low else .high

/-- `units(prim, PH)`: the mark of pair PH div 2 if PH is even, its space if odd (R188). The only stops are the cells
"none" of R188's table and, for Sync, a protocol without a row: states no run reaches (log 16). -/
def unitsOf (prim : Prim) (p : BitVec 4) (ph : BitVec 2) : Except Fault Nat :=
  let cell (pairs : List (Nat × Nat)) : Except Fault Nat :=
    match pairs[ph.toNat / 2]? with
    | some (mark, space) => .ok (if ph.getLsbD 0 then space else mark)
    | none => .error .phaseOutOfTable
  match prim with
  | .sym x => cell (waveformOf x)
  | .sync =>
    match protocolRow p with
    | some row => cell (waveformOfSync row)
    | none => .error .protocolOutOfTable

end Sys2Proof.Machine
end

