-- ==== Sys2Proof/Machine/Ops.lean ====
section
/-! DEFINITION. The named operations over registers: the register port (R61, R62), the ways a command ends (R236, R237,
R239: this hardware's exceptions; there is no return from one, R243), acceptance (R182), the cancel request (R184), the
`set_line` request and its answer (R189, R200), the wait and the advance of the position (R191, R192), reset (R270). -/

namespace Sys2Proof.Machine

/-- `emit(e)` (R13, R15). -/
def emit (e : Event) (s : State) : State := { s with trace := s.trace ++ [e] }

/-! ## The register port -/

/-- The content of register k; write-only and reserved registers read 0 (R21, R61). -/
def readReg (k : BitVec 4) (s : State) : Word :=
  if k = 1 then cwLenWord s.cw
  else if k = 2 then cwLoWord s.cw
  else if k = 3 then cwHiWord s.cw
  else if k = 4 then encStatWord s.encStat
  else if k = 5 then txStatWord s
  else if k = 6 then s.wrcnt
  else if k = 7 then txPosWord s.pos
  else 0

/-- `MemRead(k, 1)`: the word goes to the port's output; nothing else changes (R61). -/
def hostRead (k : BitVec 4) (s : State) : State := { s with regRdata := readReg k s }

/-- `MemWrite(k, 1, v)` for every k but CMD, whose write is a command (R62). Writes to other indices are ignored. -/
def hostWrite (k : BitVec 4) (v : Word) (s : State) : State :=
  if k = 1 then { s with cw := s.cw.writeLen v }
  else if k = 2 then { s with cw := s.cw.writeLo v }
  else if k = 3 then { s with cw := s.cw.writeHi v }
  else s

/-! ## How an `ENC` ends -/

/-- `raise E(val)`: the status is written, CW and everything else unchanged (R236). -/
def raiseEnc (e : ErrCode) (slave : Bool) (val : BitVec 8) (s : State) : State :=
  { s with encStat := { done := true, err := e, which := slave, val := val } }

/-- The successful end of an `ENC`: CW is written whole, with zeros above the length (R131). -/
def storeCodeword (w : List Symbol) (s : State) : State :=
  { s with cw := codewordOf w, encStat := { done := true, err := .ok, which := false, val := 0 } }

/-- The common frame of the `ENC` commands of the four families, with the order of the tests (R131, R132, R240). -/
def encFrame (f : Family) (w : List Symbol) (p : BitVec 4) (m sl : BitVec 8) (s : State) : State :=
  if protoSupported p = false then raiseEnc .unsupportedProtocol false (p.zeroExtend 8) s
  else if masterInTable f m = false then raiseEnc .unsupportedAddress false m s
  else if slaveInTable f sl = false then raiseEnc .unsupportedAddress true sl s
  else storeCodeword w s

/-- The frame of an `ENC` whose FAM names no family; the addresses are not examined (R131, R146). -/
def encUndefFrame (fam p : BitVec 4) (s : State) : State :=
  if protoSupported p = false then raiseEnc .unsupportedProtocol false (p.zeroExtend 8) s
  else raiseEnc .unsupportedVendor false (fam.zeroExtend 8) s

/-! ## How a transmission begins and ends -/

/-- Rejection of a TX or TXR: STATE stays Idle, nothing else changes (R182, R237). -/
def rejectTx (p : BitVec 4) (s : State) : State :=
  { s with txStat := { done := true, err := .unsupportedProtocol, val := p.zeroExtend 8 } }

/-- Acceptance of a TX or TXR: the shadow is taken, the status cleared, STATE is Exporting (R182). The trace of the new
transmission begins (R15; log 11). -/
def acceptTx (p : BitVec 4) (n : BitVec 16) (s : State) : State :=
  { s with
    shadow := { cw := s.cw, proto := p, rep := n }
    wrcnt := 0
    cancelPend := false
    txStat := { done := false, err := .ok, val := 0 }
    seqState := .exporting
    trace := [] }

/-- The write of a TX or TXR is held on the register port (R76, R183). -/
def holdWrite (i : Instr) (s : State) : State := { s with held := some i }

/-- A TX or TXR: held while BUSY (R183), rejected for an unsupported protocol, else accepted (R182); refused where it
would be accepted with the reserved code in CW (R93; DEDUCED, safe: the protocol is tested first, log 15). -/
def startTx (i : Instr) (p : BitVec 4) (count : ProtocolRow → BitVec 16) (s : State) : Host.Outcome State Fault Refusal :=
  if s.seqState ≠ .idle then .next (holdWrite i s)
  else
    match protocolRow p with
    | none => .next (rejectTx p s)
    | some row => if s.cw.hasReserved then .refused .reservedSymbol else .next (acceptTx p (count row) s)

/-- `complete(E)`: the end of a transmission (R239). -/
def complete (e : ErrCode) (s : State) : State :=
  { s with txStat := { done := true, err := e, val := 0 }, cancelPend := false, seqState := .idle, slReq := false }

/-- A cancel request, from the command or from the pin: latched only while BUSY (R33, R184). -/
def requestCancel (s : State) : State := if s.seqState ≠ .idle then { s with cancelPend := true } else s

/-! ## The line driver -/

/-- The request of a write step: counted when issued, sl_req and sl_val raised (R40, R189, R200). -/
def issueRequest (s : State) : State :=
  { s with wrcnt := s.wrcnt + 1, slReq := true, slVal := levelOf s.pos.ph }

/-- The cycles of a wait of k units: `k × UNIT_US × F_CLK_HZ / 10^6` (R41, R167, R189). -/
def waitCycles (k : Nat) (row : ProtocolRow) : Nat := k * row.unitUs * clkHz / 1000000

/-- The answer Ok: LINE takes the level, the wait of the phase begins and its timer is loaded (R189, R32). -/
def answerOk (cycles : Nat) (s : State) : State :=
  { s with
    slReq := false
    line := s.slVal
    pin := some s.slVal
    pos := { s.pos with sub := .wait }
    tmr := cycles
    trace := s.trace ++ [.set s.slVal .ok] }

/-- The answer Error: the transmission ends with LineWriteFailed, and the pin's level is then any value (R189, R190,
R283, U1). -/
def answerError (s : State) : State :=
  complete .lineWriteFailed { s with pin := none, trace := s.trace ++ [.set s.slVal .error] }

/-- What LINE's answer does; ignored when no request is outstanding (R189, R200). -/
def lineAnswer (a : Answer) (s : State) : Host.Outcome State Fault Refusal :=
  if s.slReq = false then .next s
  else
    match a with
    | .error => .next (answerError s)
    | .ok =>
      match currentPrim s, protocolRow s.shadow.proto with
      | none, _ => .fault .shadowSymbolReserved
      | some _, none => .fault .protocolOutOfTable
      | some prim, some row =>
        match unitsOf prim s.shadow.proto s.pos.ph with
        | .error e => .fault e
        | .ok k => .next (answerOk (waitCycles k row) s)

/-! ## The sequencer -/

/-- The advance of the position at the end of a wait (R192). -/
def advance (prim : Prim) (s : State) : State :=
  if s.pos.ph < lastPhase prim then { s with pos := { s.pos with ph := s.pos.ph + 1, sub := .write } }
  else if s.pos.i < s.shadow.cw.len then { s with pos := { s.pos with i := s.pos.i + 1, ph := 0, sub := .write } }
  else { s with seqState := .repeating }

/-- The write step of a primitive up to its request; while the request is outstanding the sequencer waits for LINE
(R189, R198, R200, R241, R285). DEDUCED, safe: the answer is LINE's own step (log 4). -/
def writeStep (prim : Prim) (s : State) : Host.Outcome State Fault Refusal :=
  if s.slReq = true then .next s
  else if s.cancelPend = true then .next (complete .cancelled s)
  else if lastPhase prim < s.pos.ph then .fault .phaseOutOfTable
  else .next (issueRequest s)

/-- The wait step of a primitive: it ends early on a cancel and then emits nothing, else the timer has run down, the
`Wait` event is emitted and the position advances (R191, R192, R198). DESIGN CHOICE, safe: one step (log 7). -/
def waitStep (prim : Prim) (s : State) : Host.Outcome State Fault Refusal :=
  if s.cancelPend = true then .next (complete .cancelled s)
  else
    match unitsOf prim s.shadow.proto s.pos.ph with
    | .error e => .fault e
    | .ok k => .next (advance prim (emit (.wait k s.shadow.proto) { s with tmr := 0 }))

/-- The next event of a primitive at the position (R160, R188 to R192). -/
def primStep (prim : Prim) (s : State) : Host.Outcome State Fault Refusal :=
  match s.pos.sub with
  | .write => writeStep prim s
  | .wait => waitStep prim s

/-- The activation of the line: EXPORTED, and with it line_en, is 1 (R31, R186, R201). Where it rises, the pin's level is any
value until the first answer Ok (U15); where it was 1 already, nothing changes. DESIGN CHOICE, safe: a level known before
a reset is held until the activation and given up there (log 10). -/
def activateLine (s : State) : State :=
  { s with exported := true, pin := if s.exported = true then s.pin else none }

/-- The Exporting step (R186, R196, R198). -/
def exportStep (s : State) : State :=
  if s.cancelPend = true then complete .cancelled s
  else
    let s1 := emit .exported (activateLine s)
    if s.shadow.rep = 0 then complete .ok s1
    else { s1 with pos := { r := 0, i := 0, ph := 0, sub := .write }, seqState := .framing }

/-- The Repeating step (R194, R195, R198). -/
def repeatStep (s : State) : State :=
  if s.cancelPend = true then complete .cancelled s
  else
    let r := s.pos.r + 1
    if r < s.shadow.rep then
      { s with pos := { r := r, i := 0, ph := 0, sub := .write }, seqState := .framing }
    else complete .ok { s with pos := { s.pos with r := r } }

/-! ## Inputs -/

/-- In a clock cycle in which cancel_i = 1 "the hardware behaves as if a `CANCEL` had been written" (R184). -/
def sampleCancel (s : State) : State := if s.cancelI = true then requestCancel s else s

/-- A clock cycle: TMR counts down by one while the sequencer is in a wait (R41). -/
def clockTick (s : State) : State :=
  if s.seqState = .framing ∧ s.pos.sub = .wait then { s with tmr := s.tmr - 1 } else s

/-- A cycle with rst = 1: all state takes its reset value; the held write is dropped; the inputs and the physical line
are not the hardware's and stay, and the configuration of the tables is no state (R20, R270, R272). DESIGN CHOICE, safe (log 9). -/
def resetHardware (s : State) : State :=
  { State.reset with
    cancelI := s.cancelI, tables := s.tables, turns := s.turns, hostProg := s.hostProg, answers := s.answers, pin := s.pin }

end Sys2Proof.Machine
end

