-- ==== Sys2Proof/Machine/Agents.lean ====
section
/-! DEFINITION. The turns of the agents (R10): HOST's access, the sequencer's step, LINE's answer, the cancel pin, the
reset input, a clock cycle; which turn is next; and how an instruction is placed where the next step fetches it. The
instruction's meaning is the argument `run`, which Machine/Step.lean gives. -/

namespace Sys2Proof.Machine

/-- What runs an instruction. -/
abbrev Run := Instr → State → Host.Outcome State Fault Refusal

/-- A write of CMD: the command is executed; a reserved opcode is ignored (R62, R106; log 14). -/
def hostCommand (run : Run) (v : Word) (s : State) : Host.Outcome State Fault Refusal :=
  match decodeCommand v with
  | .ok i => run i s
  | .error _ => .next s

/-- One item of HOST's program, s being the state with the item taken off (R61, R62, R110). -/
def hostOp (run : Run) (op : HostOp) (s : State) : Host.Outcome State Fault Refusal :=
  match op with
  | .read k => .next (hostRead k s)
  | .write k v => if k = 0 then hostCommand run v s else .next (hostWrite k v s)
  | .waitTx =>
    let s1 := hostRead 5 s
    .next (if busyOfWord s1.regRdata = true then { s1 with hostProg := .waitTx :: s1.hostProg } else s1)
  | .ifEncOk n =>
    let s1 := hostRead 4 s
    .next (if encErrOfWord s1.regRdata = 0 then s1 else { s1 with hostProg := s1.hostProg.drop n })

/-- HOST's turn: a held write is taken once STATE is Idle, and until then HOST can issue nothing (R76, R183); else the
next item of its program. -/
def hostTurn (run : Run) (s : State) : Host.Outcome State Fault Refusal :=
  match s.held with
  | some i => if s.seqState = .idle then run i { s with held := none } else .next s
  | none =>
    match s.hostProg with
    | [] => .next s
    | op :: rest => hostOp run op { s with hostProg := rest }

/-- The sequencer's turn (R199): Idle has no step; in Framing the primitive at the position is fetched and run. -/
def seqTurn (run : Run) (s : State) : Host.Outcome State Fault Refusal :=
  match s.seqState with
  | .idle => .next s
  | .exporting => .next (exportStep s)
  | .framing =>
    match decodePrim (primSelect s) with
    | .ok i => run i s
    | .error _ => .fault .shadowSymbolReserved
  | .repeating => .next (repeatStep s)

/-- LINE's turn: its next answer, or none (R200, R285, U3; log 3). -/
def lineTurn (s : State) : Host.Outcome State Fault Refusal :=
  match s.answers with
  | [] => .next s
  | a :: rest => lineAnswer a { s with answers := rest }

/-- One turn of an agent. -/
def turnStep (run : Run) (t : Turn) (s : State) : Host.Outcome State Fault Refusal :=
  match t with
  | .host => hostTurn run s
  | .seq => seqTurn run s
  | .line => lineTurn s
  | .cancelPin level => .next { s with cancelI := level }
  | .rst => .next (resetHardware s)
  | .clock => .next (clockTick s)

/-- Whose turn it is: the head of the list of turns. DESIGN CHOICE, unsafe where the list is empty: then LINE answers an
outstanding request if it has an answer, else the sequencer steps if it can, else HOST (log 2). -/
def nextTurn (s : State) : Turn :=
  match s.turns with
  | t :: _ => t
  | [] =>
    if s.slReq = true then (if s.answers = [] then .host else .line)
    else if s.seqState ≠ .idle then .seq
    else .host

/-- The beginning of every step: the turn is taken off the list and the pin cancel_i is sampled (R184; log 6). -/
def beginTurn (s : State) : State := sampleCancel { s with turns := s.turns.tail }

/-- Placing a command: HOST's next access, now, is the write of w to CMD (log 24). -/
def placeCommand (w : Word) (s : State) : State :=
  { s with turns := .host :: s.turns, hostProg := .write 0 w :: s.hostProg, held := none }

/-- Placing a primitive: the sequencer's next step is its first event. The shadow holds a codeword of the one symbol,
or for Sync the empty one (log 24). -/
def placePrimitive (b : BitVec 3) (s : State) : State :=
  { s with
    turns := .seq :: s.turns
    seqState := .framing
    slReq := false
    pos := { s.pos with i := 0, ph := 0, sub := .write }
    shadow := { s.shadow with
      cw := { len := if b.extractLsb' 2 1 = 1 then 0 else 1
              sym := Vector.ofFn fun i : Fin 31 => if i.val = 0 then b.extractLsb' 0 2 else 0 } } }

/-- Placing a code where the next step fetches. -/
def placeCode (c : Code) (s : State) : State :=
  match c with
  | .command w => placeCommand w s
  | .select b => placePrimitive b s

end Sys2Proof.Machine
end

