-- ==== Sys2Proof/Machine/Encoder.lean ====
section
/-! DEFINITION. The CodewordEncoder: the codewords of the four families and the meanings of the `ENC` commands
(40_encoder.md). Each is one atomic step, accepted in every STATE, which touches only CW and ENCSTAT (R131). -/

namespace Sys2Proof.Machine

/-- The status suffix of ElroPollin (R133). -/
def elroSuffix : Status → List Symbol
  | .on => [.zero, .float]
  | .off => [.float, .zero]

/-- The codeword of Generic/ElroPollin, 5 + 5 + 2 symbols (R133). -/
def elroCodeword (m s : BitVec 8) (st : Status) : List Symbol :=
  (addrBits 5 m).map bitmap ++ (addrBits 5 s).map bitmap ++ elroSuffix st

/-- The status pair of Intertechno standard (R136). -/
def itSuffix : Status → List Symbol
  | .on => [.float, .float]
  | .off => [.float, .zero]

/-- The codeword of Intertechno standard over a nibble table, 4 + 4 + 2 + 2 symbols; the slave is 1-based (R136). -/
def itCodeword (tab : Vector (Vector Symbol 4) 16) (m s : BitVec 8) (st : Status) : List Symbol :=
  tableEntry tab m.toNat ++ tableEntry tab (s.toNat - 1) ++ [.zero, .float] ++ itSuffix st

/-- The status pair of Intertechno PAR (R140). -/
def itParSuffix : Status → List Symbol
  | .on => [.float, .float]
  | .off => [.zero, .zero]

/-- The codeword of Intertechno PAR over its two tables, 4 + 3 + 3 + 2 symbols (R140). -/
def itParCodeword (tabM : Vector (Vector Symbol 4) 4) (tabS : Vector (Vector Symbol 3) 3) (m s : BitVec 8) (st : Status) :
    List Symbol :=
  tableEntry tabM m.toNat ++ tableEntry tabS (s.toNat - 1) ++ [.float, .float, .float] ++ itParSuffix st

/-- The codeword of Dario over its status patterns, 1 + 6 + 6 + 8 symbols (R143). -/
def darioCodeword (pattern : Status → Vector Symbol 8) (m s : BitVec 8) (st : Status) : List Symbol :=
  [.zero] ++ (addrBits 6 m).map bitmap ++ (addrBits 6 s).map bitmap ++ (pattern st).toList

/-- `ENC.ELRO` (R133). -/
def execEncElro (p : BitVec 4) (st : Status) (m sl : BitVec 8) (s : State) : Host.Outcome State Fault Refusal :=
  .next (encFrame .elro (elroCodeword m sl st) p m sl s)

/-- `ENC.IT` (R136), over the configured table (R137, U9). -/
def execEncIt (p : BitVec 4) (st : Status) (m sl : BitVec 8) (s : State) : Host.Outcome State Fault Refusal :=
  .next (encFrame .it (itCodeword (itTabOf s.tables) m sl st) p m sl s)

/-- `ENC.ITPAR` (R140), over the configured tables (R141, U9). -/
def execEncItPar (p : BitVec 4) (st : Status) (m sl : BitVec 8) (s : State) : Host.Outcome State Fault Refusal :=
  .next (encFrame .itPar (itParCodeword (parMOf s.tables) (parSOf s.tables) m sl st) p m sl s)

/-- `ENC.DARIO` (R143), over the open patterns of R144. -/
def execEncDario (p : BitVec 4) (st : Status) (m sl : BitVec 8) (s : State) : Host.Outcome State Fault Refusal :=
  .next (encFrame .dario (darioCodeword darioPattern m sl st) p m sl s)

/-- `ENC.UNDEF` with FAM 4 to 7; ST, MASTER and SLAVE are not examined (R146). -/
def execEncUndefLow (fam p : BitVec 4) (s : State) : Host.Outcome State Fault Refusal :=
  .next (encUndefFrame fam p s)

/-- `ENC.UNDEF` with FAM 8 to 15 (R146). -/
def execEncUndefHigh (fam p : BitVec 4) (s : State) : Host.Outcome State Fault Refusal :=
  .next (encUndefFrame fam p s)

end Sys2Proof.Machine
end

