-- ==== Sys2Proof/Machine/Primitives.lean ====
section
/-! DEFINITION. The primitives of the sequencer: ZERO, ONE, FLOAT, SYNC (41_waveform.md R160 to R165). Executing a
primitive is performing its next event at the position: the request of a write, or a wait; one primitive is 8 events of
the sequencer, Sync 4. DESIGN CHOICE, safe: the step's fetch runs them in Framing only (log 27). -/

namespace Sys2Proof.Machine

/-- `ZERO`: 1 high, 3 low, 1 high, 3 low (R161). -/
def execZero (s : State) : Host.Outcome State Fault Refusal := primStep (.sym .zero) s

/-- `ONE`: 3 high, 1 low, 3 high, 1 low (R162). -/
def execOne (s : State) : Host.Outcome State Fault Refusal := primStep (.sym .one) s

/-- `FLOAT`: 1 high, 3 low, 3 high, 1 low (R163). -/
def execFloat (s : State) : Host.Outcome State Fault Refusal := primStep (.sym .float) s

/-- `SYNC`: 1 high, then SYNC_RATIO(T_PROTO) low (R164). -/
def execSync (s : State) : Host.Outcome State Fault Refusal := primStep .sync s

end Sys2Proof.Machine
end

