-- ==== Sys2Proof/Machine/Transmitter.lean ====
section
/-! DEFINITION. The host commands of the transmitter: NOP, TX, TXR, CANCEL (42_transmitter.md R180 to R185). -/

namespace Sys2Proof.Machine

/-- `NOP`: no effect (R180). -/
def execNop (s : State) : Host.Outcome State Fault Refusal := .next s

/-- `TX`: transmit CW with the protocol's default repeat count (R181, R166). -/
def execTx (p : BitVec 4) (s : State) : Host.Outcome State Fault Refusal :=
  startTx (.tx p) p (fun row => row.defaultRepeat) s

/-- `TXR`: transmit CW with an explicit repeat count (R185). -/
def execTxr (p : BitVec 4) (n : BitVec 16) (s : State) : Host.Outcome State Fault Refusal :=
  startTx (.txr p n) p (fun _ => n) s

/-- `CANCEL` (R184). -/
def execCancel (s : State) : Host.Outcome State Fault Refusal := .next (requestCancel s)

end Sys2Proof.Machine
end

