-- ==== Sys2Proof/Machine/Dispatch.lean ====
section
/-! DEFINITION. One arm per instruction. -/

namespace Sys2Proof.Machine

def exec (i : Instr) (s : State) : Host.Outcome State Fault Refusal :=
  match i with
  | .nop => Sys2Proof.Machine.execNop s
  | .encElro proto st master slave => Sys2Proof.Machine.execEncElro proto st master slave s
  | .encIt proto st master slave => Sys2Proof.Machine.execEncIt proto st master slave s
  | .encItPar proto st master slave => Sys2Proof.Machine.execEncItPar proto st master slave s
  | .encDario proto st master slave => Sys2Proof.Machine.execEncDario proto st master slave s
  | .encUndefLow fam proto _ _ _ => Sys2Proof.Machine.execEncUndefLow fam proto s
  | .encUndefHigh fam proto _ _ _ => Sys2Proof.Machine.execEncUndefHigh fam proto s
  | .tx proto => Sys2Proof.Machine.execTx proto s
  | .txr proto rep => Sys2Proof.Machine.execTxr proto rep s
  | .cancel => Sys2Proof.Machine.execCancel s
  | .zero => Sys2Proof.Machine.execZero s
  | .one => Sys2Proof.Machine.execOne s
  | .float => Sys2Proof.Machine.execFloat s
  | .sync => Sys2Proof.Machine.execSync s

end Sys2Proof.Machine
end

