-- ==== Sys2Proof/Machine/Step.lean ====
section
/-! DEFINITION. One step of the machine: one turn of one agent (R10). -/

namespace Sys2Proof.Machine

/-- One step: whose turn it is, the pin sampled, that agent's act with `exec` as the meaning of instructions. -/
def step (s : State) : Host.Outcome State Fault Refusal :=
  turnStep Sys2Proof.Machine.exec (nextTurn s) (beginTurn s)

/-- The state in which the next step fetches and runs the instruction with the bits w (log 24, log 25). -/
def State.withFetchWord (s : State) (nbits w : Nat) : State := placeCode (codeOfTableWord nbits w) s

end Sys2Proof.Machine
end

