-- ==== Sys2Proof/Machine/Assembler.lean ====
section
/-! DEFINITION. The assembler: the lines of R109 with their operand forms, their text, and the pseudo-instructions of
R110. Texts are lists of characters. DESIGN CHOICE, safe: blanks and commas separate words (log 30). -/

namespace Sys2Proof.Machine

/-- An address operand of a line (R109): a bit string in quotes, a letter, or a plain number. -/
inductive AddrOperand where
  | bits (b : List Bool)
  | letter (c : Char)
  | num (n : Nat)
deriving DecidableEq, Repr

/-- A line of the assembler (R109); `encFam k` is `enc.fam<k>` for k in 4..15. -/
inductive AsmLine where
  | nop
  | enc (f : Family) (p : Nat) (m s : AddrOperand) (st : Status)
  | encFam (k p : Nat) (m s : AddrOperand) (st : Status)
  | tx (p : Nat)
  | txr (p n : Nat)
  | cancel
deriving DecidableEq, Repr

/-- The numeral of a bit string, first character most significant (R64). -/
def numeralOf (b : List Bool) : Nat := b.foldl (fun a x => 2 * a + x.toNat) 0

/-- The width of a family's address strings, where its addresses are strings (R104). -/
def stringWidth : Family → Option Nat
  | .elro => some 5
  | .dario => some 6
  | .it => none
  | .itPar => none

/-- The index of a letter: A = 0 (R104, R109). -/
def letterIndex (c : Char) : Option Nat :=
  if 'A'.toNat ≤ c.toNat ∧ c.toNat ≤ 'P'.toNat then some (c.toNat - 'A'.toNat) else none

/-- A number that fits n bits. -/
def fits (n v : Nat) : Option (BitVec n) := if v < 2 ^ n then some (BitVec.ofNat n v) else none

/-- The MASTER field of an operand: a string of the family's width, a letter for the letter families, or a number
0..255, which "is also accepted in every `m=` and `s=`" (R109). -/
def masterField (f : Option Family) : AddrOperand → Option (BitVec 8)
  | .bits b => if f.bind stringWidth = some b.length then fits 8 (numeralOf b) else none
  | .letter c =>
    match f with
    | some .it => (letterIndex c).bind (fits 8)
    | some .itPar => (letterIndex c).bind fun i => if i ≤ 3 then fits 8 i else none
    | _ => none
  | .num n => fits 8 n

/-- The SLAVE field of an operand (R109). -/
def slaveField (f : Option Family) : AddrOperand → Option (BitVec 8)
  | .bits b => if f.bind stringWidth = some b.length then fits 8 (numeralOf b) else none
  | .letter _ => none
  | .num n => fits 8 n

/-- The `ENC` instruction of a family. -/
def encInstr (f : Family) (p : BitVec 4) (st : Status) (m s : BitVec 8) : Instr :=
  match f with
  | .elro => .encElro p st m s
  | .it => .encIt p st m s
  | .itPar => .encItPar p st m s
  | .dario => .encDario p st m s

/-- The instruction of a line, none where an operand is outside the line's syntax (R109). -/
def lineInstr : AsmLine → Option Instr
  | .nop => some .nop
  | .cancel => some .cancel
  | .tx p => (fits 4 p).map .tx
  | .txr p n =>
    match fits 4 p, fits 16 n with
    | some p, some n => some (.txr p n)
    | _, _ => none
  | .enc f p m s st =>
    match fits 4 p, masterField (some f) m, slaveField (some f) s with
    | some p, some m, some s => some (encInstr f p st m s)
    | _, _, _ => none
  | .encFam k p m s st =>
    match fits 4 k, fits 4 p, masterField none m, slaveField none s with
    | some k, some p, some m, some s =>
      if k.toNat < 4 then none
      else if k.toNat < 8 then some (.encUndefLow k p st m s)
      else some (.encUndefHigh k p st m s)
    | _, _, _, _ => none

/-- The word of a line (R101 to R103, R109). -/
def assemble (l : AsmLine) : Option Word :=
  match (lineInstr l).map encode with
  | some (.command w) => some w
  | _ => none

/-! ## The text of a line -/

/-- The words of a line: maximal runs of characters that are no blank and no comma. -/
def wordsOf : List Char → List (List Char)
  | [] => []
  | c :: cs =>
    if c = ' ' ∨ c = ',' then wordsOf cs
    else
      match cs, wordsOf cs with
      | [], ws => [c] :: ws
      | d :: _, ws => if d = ' ' ∨ d = ',' then [c] :: ws else (match ws with | w :: rest => (c :: w) :: rest | [] => [[c]])

/-- A decimal numeral, not empty. -/
def decimalOf : List Char → Option Nat
  | [] => none
  | cs => cs.foldl (fun a c => a.bind fun n => if '0'.toNat ≤ c.toNat ∧ c.toNat ≤ '9'.toNat then some (10 * n + (c.toNat - '0'.toNat)) else none) (some 0)

/-- The characters 0 and 1 of a quoted string, up to its closing quote. -/
def quotedBits : List Char → Option (List Bool)
  | [] => none
  | c :: cs =>
    if c = '"' then (if cs = [] then some [] else none)
    else if c = '0' then (quotedBits cs).map (false :: ·)
    else if c = '1' then (quotedBits cs).map (true :: ·)
    else none

/-- An address operand (R109). -/
def addrOperandOf : List Char → Option AddrOperand
  | [] => none
  | c :: cs =>
    if c = '"' then (quotedBits cs).map .bits
    else if cs = [] ∧ 'A'.toNat ≤ c.toNat ∧ c.toNat ≤ 'Z'.toNat then some (.letter c)
    else (decimalOf (c :: cs)).map .num

/-- What follows `<key>=` in a word. -/
def valueAfter (key : Char) : List Char → Option (List Char)
  | c :: '=' :: cs => if c = key then some cs else none
  | _ => none

/-- `on` or `off`. -/
def statusOf (w : List Char) : Option Status :=
  if w = ['o', 'n'] then some .on else if w = ['o', 'f', 'f'] then some .off else none

/-- The family of `enc.<fam>`. -/
def familyOf (w : List Char) : Option Family :=
  if w = ['e', 'l', 'r', 'o'] then some .elro
  else if w = ['i', 't'] then some .it
  else if w = ['i', 't', 'p', 'a', 'r'] then some .itPar
  else if w = ['d', 'a', 'r', 'i', 'o'] then some .dario
  else none

/-- A line of an `enc` from its four operand words. -/
def encLineOf (build : Nat → AddrOperand → AddrOperand → Status → AsmLine) (args : List (List Char)) : Option AsmLine :=
  match args with
  | [p, m, s, st] =>
    match (valueAfter 'p' p).bind decimalOf, (valueAfter 'm' m).bind addrOperandOf, (valueAfter 's' s).bind addrOperandOf, statusOf st with
    | some p, some m, some s, some st => some (build p m s st)
    | _, _, _, _ => none
  | _ => none

/-- The line a text stands for (R109); none for any other text. -/
def parseLine (text : List Char) : Option AsmLine :=
  match wordsOf text with
  | [] => none
  | op :: args =>
    if op = ['n', 'o', 'p'] then (if args = [] then some .nop else none)
    else if op = ['c', 'a', 'n', 'c', 'e', 'l'] then (if args = [] then some .cancel else none)
    else if op = ['t', 'x'] then
      match args with
      | [p] => ((valueAfter 'p' p).bind decimalOf).map .tx
      | _ => none
    else if op = ['t', 'x', 'r'] then
      match args with
      | [p, n] =>
        match (valueAfter 'p' p).bind decimalOf, (valueAfter 'n' n).bind decimalOf with
        | some p, some n => some (.txr p n)
        | _, _ => none
      | _ => none
    else if op.take 4 = ['e', 'n', 'c', '.'] then
      match familyOf (op.drop 4) with
      | some f => encLineOf (AsmLine.enc f) args
      | none =>
        if (op.drop 4).take 3 = ['f', 'a', 'm'] then (decimalOf (op.drop 7)).bind fun k => encLineOf (AsmLine.encFam k) args
        else none
    else none

/-! ## Pseudo-instructions and host directives -/

/-- A line is the write of its word to CMD (R109). -/
def lineOps (l : AsmLine) : Option (List HostOp) := (assemble l).map fun w => [.write 0 w]

/-- `ldcw`: the three register writes that load a codeword of at most 31 symbols; unused slots are 0 (R110). -/
def ldcwOps (w : List Symbol) : Option (List HostOp) :=
  if w.length ≤ 31 then
    let c := codewordOf w
    some [.write 1 (cwLenWord c), .write 2 (cwLoWord c), .write 3 (cwHiWord c)]
  else none

/-- `ldcw "<text>"` (R91, R110). -/
def ldcwText (t : List Char) : Option (List HostOp) := (parseText t).bind ldcwOps

/-- `send.<fam>`: the encode, the test of E_ERR, and only if it is 0 the transmit and the wait (R110). DESIGN CHOICE, safe:
`<fam>` is one of the four named families; the spec does not say whether it is also a `fam<k>` (log 32). -/
def sendOps (f : Family) (p : Nat) (m s : AddrOperand) (st : Status) : Option (List HostOp) :=
  match assemble (.enc f p m s st), assemble (.tx p) with
  | some e, some t => some [.write 0 e, .ifEncOk 2, .write 0 t, .waitTx]
  | _, _ => none

/-- The index of a register's name (R21); a reserved register has none. -/
def registerOf (name : List Char) : Option (BitVec 4) :=
  if name = ['C', 'M', 'D'] then some 0
  else if name = ['C', 'W', '_', 'L', 'E', 'N'] then some 1
  else if name = ['C', 'W', '_', 'L', 'O'] then some 2
  else if name = ['C', 'W', '_', 'H', 'I'] then some 3
  else if name = ['E', 'N', 'C', 'S', 'T', 'A', 'T'] then some 4
  else if name = ['T', 'X', 'S', 'T', 'A', 'T'] then some 5
  else if name = ['W', 'R', 'C', 'N', 'T'] then some 6
  else if name = ['T', 'X', 'P', 'O', 'S'] then some 7
  else none

/-- `rd <reg>` (R110). -/
def rdOps (name : List Char) : Option (List HostOp) := (registerOf name).map fun k => [.read k]

/-- `wr <reg>, <value>` (R110). -/
def wrOps (name : List Char) (v : Word) : Option (List HostOp) := (registerOf name).map fun k => [.write k v]

end Sys2Proof.Machine
end

