-- ==== Sys2Proof/Machine/Waveform.lean ====
section
/-! DEFINITION. What a whole transmission sends, said without the sequencer: segments, frames, the trace of R202, the
lengths of R168, the durations of R167, R169, R295, and the write counts of R203. -/

namespace Sys2Proof.Machine

/-- The events of one (mark, space) pair, every request answered Ok (R160, R202). -/
def pairEvents (p : BitVec 4) (pair : Nat × Nat) : List Event :=
  [.set .high .ok, .wait pair.1 p, .set .low .ok, .wait pair.2 p]

/-- `seg(x)`: one waveform segment (R15, R202). -/
def segment (row : ProtocolRow) (p : BitVec 4) (prim : Prim) : List Event :=
  (pairsOf row prim).flatMap (pairEvents p)

/-- The primitives of one frame: the codeword's symbols, then Sync (R39, R66). -/
def framePrims (w : List Symbol) : List Prim := w.map .sym ++ [.sync]

/-- `frame` (R202). -/
def frameEvents (row : ProtocolRow) (p : BitVec 4) (w : List Symbol) : List Event :=
  (framePrims w).flatMap (segment row p)

/-- The trace of a transmission of n frames that is neither cancelled nor failed (R202). -/
def transmissionEvents (row : ProtocolRow) (p : BitVec 4) (w : List Symbol) (n : Nat) : List Event :=
  .exported :: (List.replicate n (frameEvents row p w)).flatten

/-- The units of an event: only waits take time (R15, R191). -/
def eventUnits : Event → Nat
  | .exported => 0
  | .set _ _ => 0
  | .wait k _ => k

/-- The units of a trace. -/
def traceUnits (t : List Event) : Nat := (t.map eventUnits).sum

/-- An event is a line write. -/
def isWrite : Event → Bool
  | .set _ _ => true
  | .exported => false
  | .wait _ _ => false

/-- The line writes of a trace. -/
def traceWrites (t : List Event) : Nat := t.countP isWrite

/-- The line writes of a frame of n symbols: 4n + 2 (R168). -/
def frameWrites (n : Nat) : Nat := 4 * n + 2

/-- The units of a frame of n symbols: 8n + 1 + SYNC_RATIO (R168). -/
def frameUnits (row : ProtocolRow) (n : Nat) : Nat := 8 * n + 1 + row.syncRatio

/-- The nominal microseconds of a wait: `k × UNIT_US(p)`, an exact product (R167). -/
def nominalUs (row : ProtocolRow) (k : Nat) : Nat := k * row.unitUs

/-- The real microseconds of the n-th wait: the nominal ones and a lateness of at most JITTER_US (R169, R296, U5;
log 21). No rule of the machine reads it. DESIGN CHOICE, unsafe: a whole number of microseconds, where the spec does not say
that a real duration is one (log 21). -/
def realUs (row : ProtocolRow) (n k : Nat) : Nat := nominalUs row k + Config.lateness n % (Config.jitterUs + 1)

/-- The write count at a position inside a frame, w being 1 if the write of the phase has been issued (R203). -/
def writesAt (n r i ph w : Nat) : Nat := r * frameWrites n + 4 * i + ph + w

/-- The steps of the sequencer in a transmission of n symbols and k frames (R199). -/
def sequencerSteps (n k : Nat) : Nat := 1 + k * (2 * frameWrites n + 1)

end Sys2Proof.Machine
end

