-- ==== Sys2Proof/Safety.lean ====
section
/-! DEFINITION. What holds of every state the machine reaches, in the terms the claims use: the coherence of the
sequencer's state, and runs of several steps. -/

namespace Sys2Proof.Machine

/-- k steps, stopping at the first fault or refusal. -/
def runSteps : Nat → State → Host.Outcome State Fault Refusal
  | 0, s => .next s
  | k + 1, s =>
    match step s with
    | .next t => runSteps k t
    | .fault r => .fault r
    | .refused r => .refused r

/-- The shadow holds what acceptance lets in: a supported protocol and a codeword of symbols (R38, R93, R182). -/
abbrev ShadowValid (s : State) : Prop :=
  protoSupported s.shadow.proto = true ∧ s.shadow.cw.hasReserved = false

/-- The position stands in the frame: a frame still to finish, `I` at a symbol or at Sync, and Sync has phases 0 and 1
only (R36). -/
abbrev PositionValid (s : State) : Prop :=
  s.pos.r < s.shadow.rep ∧ s.pos.i ≤ s.shadow.cw.len ∧ (s.pos.i = s.shadow.cw.len → s.pos.ph ≤ 1)

/-- The writes issued, as R203 counts them from the position. -/
abbrev WritesCounted (s : State) : Prop :=
  s.wrcnt.toNat =
    writesAt s.shadow.cw.len.toNat s.pos.r.toNat s.pos.i.toNat s.pos.ph.toNat
      (if s.pos.sub = .wait ∨ s.slReq = true then 1 else 0)

/-- The level of LINE inside a frame: that of the phase in its wait; before a write, Low at an even phase and High at an
odd one, but for the first write of a transmission (R161 to R165). -/
abbrev LineFollowsPhase (s : State) : Prop :=
  (s.pos.sub = .wait → s.line = levelOf s.pos.ph) ∧
  (s.pos.sub = .write → s.pos.ph.getLsbD 0 = true → s.line = .high) ∧
  (s.pos.sub = .write → s.pos.ph.getLsbD 0 = false → ¬(s.pos.r = 0 ∧ s.pos.i = 0 ∧ s.pos.ph = 0) → s.line = .low)

/-- What acceptance clears stays clear while the transmission runs (R182). -/
abbrev StatusCleared (s : State) : Prop :=
  s.txStat.done = false ∧ s.txStat.err = .ok ∧ s.txStat.val = 0

/-- The codes each status field can hold (R27, R34, R96). -/
abbrev StatusLegal (s : State) : Prop :=
  (s.encStat.err = .ok ∨ s.encStat.err = .unsupportedVendor ∨ s.encStat.err = .unsupportedProtocol ∨
    s.encStat.err = .unsupportedAddress) ∧
  (s.encStat.err = .ok → s.encStat.val = 0) ∧
  (s.encStat.which = true → s.encStat.err = .unsupportedAddress) ∧
  (s.encStat.done = false → s.encStat.err = .ok) ∧
  (s.txStat.err = .ok ∨ s.txStat.err = .unsupportedProtocol ∨ s.txStat.err = .lineWriteFailed ∨ s.txStat.err = .cancelled) ∧
  (s.txStat.err ≠ .unsupportedProtocol → s.txStat.val = 0)

/-- Only a TX or a TXR is ever held on the register port (R183). -/
def heldLegal : Option Instr → Bool
  | none => true
  | some (.tx _) => true
  | some (.txr _ _) => true
  | some _ => false

/-- The invariant of the machine. -/
structure Coherent (s : State) : Prop where
  /-- While BUSY the shadow is what acceptance let in, and the transmit status is cleared (R38, R182). -/
  busy : s.seqState ≠ .idle → ShadowValid s ∧ StatusCleared s
  /-- No cancel request is pending while Idle (R33, R184). -/
  idle : s.seqState = .idle → s.cancelPend = false
  /-- No request has been issued before the first frame (R40, R182). -/
  exporting : s.seqState = .exporting → s.wrcnt = 0
  /-- In a frame (R36, R203, R165, R186). -/
  framing : s.seqState = .framing → PositionValid s ∧ WritesCounted s ∧ LineFollowsPhase s ∧ s.exported = true
  /-- Between frames the position is that of the frame's last wait (R192). -/
  repeating : s.seqState = .repeating →
    PositionValid s ∧ s.pos.i = s.shadow.cw.len ∧ s.pos.ph = 1 ∧ s.pos.sub = .wait ∧ WritesCounted s ∧ s.line = .low ∧
      s.exported = true
  /-- A request is outstanding only in a write step, at the level of its phase (R73, R189, R200). -/
  request : s.slReq = true → s.seqState = .framing ∧ s.pos.sub = .write ∧ s.slVal = levelOf s.pos.ph
  /-- The status fields hold their codes only (R27, R34). -/
  status : StatusLegal s
  /-- Only a TX or TXR is held (R183). -/
  held : heldLegal s.held = true

/-- The instructions HOST writes to CMD (R18, R100). -/
def isCommand : Instr → Bool
  | .nop => true
  | .encElro _ _ _ _ => true
  | .encIt _ _ _ _ => true
  | .encItPar _ _ _ _ => true
  | .encDario _ _ _ _ => true
  | .encUndefLow _ _ _ _ _ => true
  | .encUndefHigh _ _ _ _ _ => true
  | .tx _ => true
  | .txr _ _ => true
  | .cancel => true
  | .zero => false
  | .one => false
  | .float => false
  | .sync => false

/-- The `ENC` commands (R131). -/
def isEncode : Instr → Bool
  | .encElro _ _ _ _ => true
  | .encIt _ _ _ _ => true
  | .encItPar _ _ _ _ => true
  | .encDario _ _ _ _ => true
  | .encUndefLow _ _ _ _ _ => true
  | .encUndefHigh _ _ _ _ _ => true
  | .nop => false
  | .tx _ => false
  | .txr _ _ => false
  | .cancel => false
  | .zero => false
  | .one => false
  | .float => false
  | .sync => false

/-- The primitive an instruction of the sequencer is (R111). -/
def primOf : Instr → Option Prim
  | .zero => some (.sym .zero)
  | .one => some (.sym .one)
  | .float => some (.sym .float)
  | .sync => some .sync
  | .nop => none
  | .encElro _ _ _ _ => none
  | .encIt _ _ _ _ => none
  | .encItPar _ _ _ _ => none
  | .encDario _ _ _ _ => none
  | .encUndefLow _ _ _ _ _ => none
  | .encUndefHigh _ _ _ _ _ => none
  | .tx _ => none
  | .txr _ _ => none
  | .cancel => none

/-- The bits of a command word that its format reserves or ignores, by opcode (R101 to R103, R106). -/
def reservedMask (op : BitVec 4) : Word :=
  if op = 1 then 0x0000E000
  else if op = 2 then 0xFFFFF0F0
  else if op = 3 then 0x0000F0F0
  else 0xFFFFFFF0

/-- The turns of one phase in which LINE answers: the request, the answer, the wait. -/
def phaseTurns : List Turn := [.seq, .line, .seq]

/-- The turns of one frame of n symbols and of the step between frames (R199, with LINE's answers). -/
def frameTurns (n : Nat) : List Turn := (List.replicate (frameWrites n) phaseTurns).flatten ++ [.seq]

/-- The turns of a whole transmission of k frames of n symbols. -/
def transmissionTurns (n k : Nat) : List Turn := .seq :: (List.replicate k (frameTurns n)).flatten

/-- An `ENC` ends with an error: `ENCSTAT` is written and nothing else changes, CW included (R236). -/
abbrev EncRaises (i : Instr) (s : State) (e : ErrCode) (slave : Bool) (val : BitVec 8) : Prop :=
  exec i s = .next { s with encStat := { done := true, err := e, which := slave, val := val } }

/-- An `ENC` succeeds: CW holds a codeword of n symbols whose slot codes are given, with zeros above; `ENCSTAT` says Ok;
nothing else changes (R131). -/
abbrev EncStores (i : Instr) (s : State) (n : Nat) (slots : Nat → BitVec 2) : Prop :=
  ∃ t, exec i s = .next t ∧ t = { s with cw := t.cw, encStat := { done := true, err := .ok, which := false, val := 0 } } ∧
    t.cw.len.toNat = n ∧ ∀ j, j < 31 → t.cw.slot j = if j < n then slots j else 0

/-- The end of a transmission with status e, as the fields it writes (R239). -/
abbrev Completed (e : ErrCode) (s : State) : State :=
  { s with txStat := { done := true, err := e, val := 0 }, cancelPend := false, seqState := .idle, slReq := false }

/-- The protocol ids of R98 that are supported. -/
abbrev Supported (p : BitVec 4) : Prop := p = 1 ∨ p = 2 ∨ p = 3

/-- Every slot of CW below CW.len is a symbol (R26). -/
abbrev CwIsCodeword (s : State) : Prop := ∀ i, i < s.cw.len.toNat → s.cw.slot i ≠ 3

end Sys2Proof.Machine
end

