-- ==== Sys2Proof/Certificates/Slice0/Obligations.lean ====
section
/-! DEFINITION. The statements for the provers. Each docstring names the rules of spec/ it formalises. -/

open Sys2Proof Sys2Proof.Machine

/-! ## Reset -/

/-- R43: every piece of state has its reset value; hence every register of R21 reads 0. -/
def Obligations.ResetGivesEveryStateItsResetValue : Prop :=
  State.reset.cw.len = 0 ∧ (∀ i, i < 31 → State.reset.cw.slot i = 0) ∧
  State.reset.encStat = { done := false, err := .ok, which := false, val := 0 } ∧
  State.reset.seqState = .idle ∧ State.reset.busy = false ∧
  State.reset.txStat = { done := false, err := .ok, val := 0 } ∧
  State.reset.exported = false ∧ State.reset.lineEn = false ∧ State.reset.line = .low ∧ State.reset.cancelPend = false ∧
  State.reset.pos = { r := 0, i := 0, ph := 0, sub := .write } ∧
  State.reset.shadow = { cw := State.reset.cw, proto := 0, rep := 0 } ∧
  State.reset.wrcnt = 0 ∧ State.reset.tmr = 0 ∧ State.reset.slReq = false ∧ State.reset.slVal = .low ∧
  ∀ k, readReg k State.reset = 0

/-- R270: a cycle with rst = 1 gives every piece of the hardware's state its reset value, whatever it was doing: a request
is withdrawn, a held write dropped, no completion recorded. That the inputs and the physical line stay as they are is
the model's choice (log 9) and R272; the configuration of the encoder tables is no state and stays (R20, log 33); the reset values of reg_rdata and of the model's own fields are its choice too (log 12,
log 23). -/
def Obligations.ResetInputRestoresResetValues : Prop :=
  ∀ s : State, nextTurn s = .rst →
    step s = .next
      { State.reset with
        cancelI := s.cancelI, tables := s.tables, turns := s.turns.tail, hostProg := s.hostProg, answers := s.answers
        pin := s.pin }

/-- R31: once set, EXPORTED is cleared only by reset. -/
def Obligations.ExportedFallsOnlyByReset : Prop :=
  ∀ s t : State, step s = .next t → s.exported = true → t.exported = false → nextTurn s = .rst

/-- R252, R271: while the sequencer is Idle and HOST has nothing to issue, a turn of HOST, of the sequencer or of the
clock changes nothing but the model's list of turns (log 1, log 2). -/
def Obligations.IdleMachineDoesNothing : Prop :=
  ∀ s : State, s.seqState = .idle → s.hostProg = [] → s.held = none →
    nextTurn s = .host ∨ nextTurn s = .seq ∨ nextTurn s = .clock →
    step s = .next { s with turns := s.turns.tail }

/-! ## Invariants -/

/-- The coherence of the machine's state holds at reset. -/
def Obligations.ResetIsCoherent : Prop := Coherent State.reset

/-- Every step keeps the coherence of the machine's state: the shadow is valid while BUSY (R38, R182), the position
stays in the frame (R36), WRCNT is R203's count of the position, LINE follows the phase (R165), a request is outstanding
only in a write step (R200), no cancel is pending while Idle (R33), the status fields hold only their codes (R27, R34). -/
def Obligations.StepKeepsCoherence : Prop :=
  ∀ s t : State, Coherent s → step s = .next t → Coherent t

/-- From a coherent state no step faults, and the one refusal is a TX or TXR with the reserved symbol code in CW
(R106: there is no illegal-command trap; R93; the model's faults and refusal are log 15, log 16). -/
def Obligations.CoherentStepNeverFaults : Prop :=
  ∀ s : State, Coherent s →
    (∀ r, step s ≠ .fault r) ∧
    (∀ r, step s = .refused r → r = .reservedSymbol ∧ nextTurn s = .host ∧ s.seqState = .idle ∧ s.cw.hasReserved = true)

/-- The shadow does not change while BUSY (R38, R74, R78), whatever any agent but reset does. -/
def Obligations.ShadowFixedWhileBusy : Prop :=
  ∀ s t : State, s.seqState ≠ .idle → nextTurn s ≠ .rst → step s = .next t → t.shadow = s.shadow

/-- CW and ENCSTAT change only in HOST's turns or by reset (R25, R28, R69). -/
def Obligations.CodewordAndEncoderStatusAreTheHosts : Prop :=
  ∀ s t : State, nextTurn s ≠ .host → nextTurn s ≠ .rst → step s = .next t → t.cw = s.cw ∧ t.encStat = s.encStat

/-- WRCNT counts requests (R40): a step leaves it, adds one when it issues a request, or clears it when a TX or TXR is
accepted or by reset. -/
def Obligations.WriteCountCountsRequests : Prop :=
  ∀ s t : State, step s = .next t →
    t.wrcnt = s.wrcnt ∨
    (t.wrcnt = s.wrcnt + 1 ∧ s.slReq = false ∧ t.slReq = true) ∨
    (t.wrcnt = 0 ∧ ((s.seqState = .idle ∧ t.seqState = .exporting) ∨ nextTurn s = .rst))

/-- R32: LINE changes only when LINE answers Ok to an outstanding request, and then takes the requested level; or by
reset. -/
def Obligations.LineRegisterFollowsOkAnswers : Prop :=
  ∀ s t : State, step s = .next t → t.line ≠ s.line →
    nextTurn s = .rst ∨ (nextTurn s = .line ∧ s.slReq = true ∧ (∃ rest, s.answers = .ok :: rest) ∧ t.line = s.slVal)

/-- R203, R239: how a transmission's end, early or not, leaves WRCNT, the position and LINE. Inside a frame the position
stays and WRCNT is its count: with the failed request counted (LineWriteFailed), or with SUB (Cancelled). In Repeating a
Cancelled end keeps the position, with R + 1 whole frames written; an Ok end has R = T_REP frames written. In Exporting
nothing has been written. -/
def Obligations.WritesAtAnEarlyEndMatchThePosition : Prop :=
  ∀ s t : State, Coherent s → nextTurn s ≠ .rst → step s = .next t → t.seqState = .idle →
    (s.seqState = .framing →
      t.pos = s.pos ∧ t.line = s.line ∧ (t.txStat.err = .lineWriteFailed ∨ t.txStat.err = .cancelled) ∧
      t.wrcnt.toNat =
        s.pos.r.toNat * (4 * s.shadow.cw.len.toNat + 2) + 4 * s.pos.i.toNat + s.pos.ph.toNat +
          (if t.txStat.err = .lineWriteFailed then 1 else if s.pos.sub = .wait then 1 else 0)) ∧
    (s.seqState = .repeating →
      t.line = s.line ∧
      ((t.txStat.err = .cancelled ∧ t.pos = s.pos ∧
          t.wrcnt.toNat = (s.pos.r.toNat + 1) * (4 * s.shadow.cw.len.toNat + 2)) ∨
       (t.txStat.err = .ok ∧ t.pos = { s.pos with r := s.shadow.rep } ∧
          t.wrcnt.toNat = s.shadow.rep.toNat * (4 * s.shadow.cw.len.toNat + 2)))) ∧
    (s.seqState = .exporting →
      t.pos = s.pos ∧ t.line = s.line ∧ t.wrcnt = 0 ∧
      (t.txStat.err = .cancelled ∨ (t.txStat.err = .ok ∧ s.shadow.rep = 0)))

/-- A request stays raised with a stable level until LINE answers it (R200), or reset withdraws it (R270). That LINE
may give no answer is log 3. -/
def Obligations.RequestStaysUntilAnswered : Prop :=
  ∀ s t : State, Coherent s → s.slReq = true → nextTurn s ≠ .rst → (nextTurn s = .line → s.answers = []) →
    step s = .next t → t.slReq = true ∧ t.slVal = s.slVal ∧ t.seqState = s.seqState ∧ t.pos = s.pos ∧ t.wrcnt = s.wrcnt

/-! ## Encodings -/

/-- Decoding the code of a well-formed instruction gives the instruction back, every operand at every value. -/
def Obligations.DecodeOfEncodeIsTheInstruction : Prop :=
  ∀ i : Instr, WellFormed i → decode (encode i) = .ok i

/-- What the command decoder answers is a well-formed host command, whose word is the decoded word but for the reserved
and ignored bits (R100 to R103, R106). -/
def Obligations.EncodeOfDecodeDiffersInReservedBitsOnly : Prop :=
  ∀ (w : Word) (i : Instr), decodeCommand w = .ok i →
    WellFormed i ∧ isCommand i = true ∧
    ∃ v, encode i = .command v ∧ v &&& ~~~reservedMask (w.extractLsb' 0 4) = w &&& ~~~reservedMask (w.extractLsb' 0 4)

/-- R106: two command words that differ only in reserved bits (or in the REPEAT bits of a TX) decode alike. -/
def Obligations.ReservedBitsAreIgnored : Prop :=
  ∀ v w : Word, v &&& ~~~reservedMask (w.extractLsb' 0 4) = w &&& ~~~reservedMask (w.extractLsb' 0 4) →
    decodeCommand v = decodeCommand w

/-- R106, U11: a command word with opcode 5 to 15 is ignored: HOST's access is done, and nothing else changes
(what every step does at its beginning, `beginTurn`, is the model's choice, log 6; log 14). -/
def Obligations.ReservedOpcodesAreIgnored : Prop :=
  ∀ (s : State) (w : Word) (rest : List HostOp), nextTurn s = .host → s.held = none → s.hostProg = .write 0 w :: rest →
    5 ≤ (w.extractLsb' 0 4).toNat → step s = .next { beginTurn s with hostProg := rest }

/-- Words written out from R101 to R103, and the primitive selects of R111 with the reserved symbol code and the unused
bits of Sync, decode to what they stand for. -/
def Obligations.WordsDecodeAsTheSpecWritesThem : Prop :=
  decodeCommand 0x00000000 = .ok .nop ∧
  decodeCommand 0x1E101101 = .ok (.encElro 1 .on 16 30) ∧
  decodeCommand 0x0B061211 = .ok (.encIt 2 .on 6 11) ∧
  decodeCommand 0x02010221 = .ok (.encItPar 2 .off 1 2) ∧
  decodeCommand 0x01200131 = .ok (.encDario 1 .off 32 1) ∧
  decodeCommand 0x63631071 = .ok (.encUndefLow 7 0 .on 99 99) ∧
  decodeCommand 0x000011F1 = .ok (.encUndefHigh 15 1 .on 0 0) ∧
  decodeCommand 0x00030102 = .ok (.tx 1) ∧
  decodeCommand 0x00030103 = .ok (.txr 1 3) ∧
  decodeCommand 0x00000004 = .ok .cancel ∧
  decodePrim 0b000 = .ok .zero ∧ decodePrim 0b001 = .ok .one ∧ decodePrim 0b010 = .ok .float ∧
  decodePrim 0b011 = .error .reservedSymbol ∧ (∀ b : BitVec 3, 4 ≤ b.toNat → decodePrim b = .ok .sync)

/-- R100, R102, R103: the rows of TX, TXR and CANCEL, by match and mask, with their operands. -/
def Obligations.TransmitterRowsDecode : Prop :=
  (∀ w : Word, w &&& 0xF = 0x2 → decodeCommand w = .ok (.tx (w.extractLsb' 8 4))) ∧
  (∀ w : Word, w &&& 0xF = 0x3 → decodeCommand w = .ok (.txr (w.extractLsb' 8 4) (w.extractLsb' 16 16))) ∧
  (∀ w : Word, w &&& 0xF = 0x4 → decodeCommand w = .ok .cancel) ∧
  (∀ w : Word, 5 ≤ (w &&& 0xF).toNat → ∃ op, decodeCommand w = .error (.reservedOpcode op))

/-- R92 (and R91's text form): the two functions on characters are inverse, parsing the text form of a codeword gives it
back, re-serialising a parsed text reproduces it, and any other character is refused. -/
def Obligations.TextFormRoundTrips : Prop :=
  charOf .zero = '0' ∧ charOf .one = '1' ∧ charOf .float = 'F' ∧
  symOf '0' = some .zero ∧ symOf '1' = some .one ∧ symOf 'F' = some .float ∧
  (∀ w : List Symbol, parseText (textOf w) = some w) ∧
  (∀ (t : List Char) (w : List Symbol), parseText t = some w → textOf w = t) ∧
  (∀ c : Char, c ≠ '0' → c ≠ '1' → c ≠ 'F' → symOf c = none ∧ ∀ a b : List Char, parseText (a ++ c :: b) = none)

/-- R109: a line assembles exactly if it stands for an instruction, and its word decodes to that instruction. Which
instruction that is: each operand in its field; an address as a quoted string of the family's width (the first character
the most significant bit), as a letter (A = 0) for the master of the letter families, or as a number 0 to 255; nothing
where an operand is outside the line's syntax. -/
def Obligations.AssembledLineDecodesToItsInstruction : Prop :=
  (∀ (l : AsmLine) (w : Word), assemble l = some w → ∃ i, lineInstr l = some i ∧ decodeCommand w = .ok i) ∧
  (∀ (l : AsmLine) (i : Instr), lineInstr l = some i → ∃ w, assemble l = some w ∧ encode i = .command w) ∧
  (lineInstr .nop = some .nop ∧ lineInstr .cancel = some .cancel) ∧
  (∀ p : Nat, lineInstr (.tx p) = if p < 16 then some (.tx (BitVec.ofNat 4 p)) else none) ∧
  (∀ p n : Nat, lineInstr (.txr p n) =
    if p < 16 ∧ n < 65536 then some (.txr (BitVec.ofNat 4 p) (BitVec.ofNat 16 n)) else none) ∧
  (∀ (p : Nat) (m sl : AddrOperand) (st : Status) (mv sv : BitVec 8), p < 16 →
    (masterField (some .elro) m = some mv → slaveField (some .elro) sl = some sv →
      lineInstr (.enc .elro p m sl st) = some (.encElro (BitVec.ofNat 4 p) st mv sv)) ∧
    (masterField (some .it) m = some mv → slaveField (some .it) sl = some sv →
      lineInstr (.enc .it p m sl st) = some (.encIt (BitVec.ofNat 4 p) st mv sv)) ∧
    (masterField (some .itPar) m = some mv → slaveField (some .itPar) sl = some sv →
      lineInstr (.enc .itPar p m sl st) = some (.encItPar (BitVec.ofNat 4 p) st mv sv)) ∧
    (masterField (some .dario) m = some mv → slaveField (some .dario) sl = some sv →
      lineInstr (.enc .dario p m sl st) = some (.encDario (BitVec.ofNat 4 p) st mv sv)) ∧
    ∀ k : Nat, masterField none m = some mv → slaveField none sl = some sv →
      lineInstr (.encFam k p m sl st) =
        if k < 4 ∨ 15 < k then none
        else if k < 8 then some (.encUndefLow (BitVec.ofNat 4 k) (BitVec.ofNat 4 p) st mv sv)
        else some (.encUndefHigh (BitVec.ofNat 4 k) (BitVec.ofNat 4 p) st mv sv)) ∧
  (∀ (f : Family) (k p : Nat) (m sl : AddrOperand) (st : Status),
    (15 < p ∨ masterField (some f) m = none ∨ slaveField (some f) sl = none → lineInstr (.enc f p m sl st) = none) ∧
    (15 < p ∨ masterField none m = none ∨ slaveField none sl = none → lineInstr (.encFam k p m sl st) = none)) ∧
  (∀ (f : Option Family) (n : Nat),
    masterField f (.num n) = (if n < 256 then some (BitVec.ofNat 8 n) else none) ∧
    slaveField f (.num n) = (if n < 256 then some (BitVec.ofNat 8 n) else none)) ∧
  (∀ (f : Family) (n : Nat) (b : List Bool), (f = .elro ∧ n = 5) ∨ (f = .dario ∧ n = 6) →
    (b.length = n →
      ∃ v : BitVec 8, masterField (some f) (.bits b) = some v ∧ slaveField (some f) (.bits b) = some v ∧ v.toNat < 2 ^ n ∧
        ∀ i, i < n → b[i]? = some (v.getLsbD (n - 1 - i))) ∧
    (b.length ≠ n → masterField (some f) (.bits b) = none ∧ slaveField (some f) (.bits b) = none)) ∧
  (∀ (f : Option Family) (b : List Bool), f = none ∨ f = some .it ∨ f = some .itPar →
    masterField f (.bits b) = none ∧ slaveField f (.bits b) = none) ∧
  (∀ i : Nat,
    (i < 16 → masterField (some .it) (.letter (Char.ofNat (65 + i))) = some (BitVec.ofNat 8 i)) ∧
    (i < 4 → masterField (some .itPar) (.letter (Char.ofNat (65 + i))) = some (BitVec.ofNat 8 i)) ∧
    (4 ≤ i → i < 16 → masterField (some .itPar) (.letter (Char.ofNat (65 + i))) = none)) ∧
  (∀ (f : Option Family) (c : Char),
    (c.toNat < 65 ∨ 80 < c.toNat → masterField f (.letter c) = none) ∧
    (f = none ∨ f = some .elro ∨ f = some .dario → masterField f (.letter c) = none) ∧
    slaveField f (.letter c) = none)

/-! ## A step runs the decoded instruction -/

/-- A write of CMD runs the decoded command, in the state in which HOST's access is taken off its program; a held TX or
TXR is run the same way once the sequencer is Idle (R62, R100, R183). What the step adds is `beginTurn`: the turn is taken
and the pin cancel_i sampled (R184). The lists, the moment of the sampling and the keeping of a held write are the model's
choices (log 1, log 5, log 6). -/
def Obligations.HostStepRunsTheDecodedCommand : Prop :=
  (∀ (s : State) (w : Word) (rest : List HostOp) (i : Instr), nextTurn s = .host → s.held = none →
    s.hostProg = .write 0 w :: rest → decodeCommand w = .ok i →
    step s = exec i { beginTurn s with hostProg := rest }) ∧
  (∀ (s : State) (i : Instr), nextTurn s = .host → s.held = some i → s.seqState = .idle →
    step s = exec i { beginTurn s with held := none })

/-- In Framing the sequencer's turn runs the primitive that the select at the position decodes to (R111, R188);
`beginTurn` is the model's (log 6). -/
def Obligations.SequencerStepRunsTheFetchedPrimitive : Prop :=
  ∀ (s : State) (i : Instr), nextTurn s = .seq → s.seqState = .framing → decodePrim (primSelect s) = .ok i →
    step s = exec i (beginTurn s)

/-! ## The encoder -/

/-- R133: the codeword of ENC.ELRO, and each of its errors, for every operand. -/
def Obligations.EncElroStoresItsCodewordOrRaises : Prop :=
  (∀ w : Word, w &&& 0xFF = 0x01 → decodeCommand w = .ok (.encElro (w.extractLsb' 8 4) (if w.getLsbD 12 then .on else .off)
    (w.extractLsb' 16 8) (w.extractLsb' 24 8))) ∧
  (∀ (p : BitVec 4) (st : Status) (m sl : BitVec 8) (s : State),
      (Supported p → m.toNat ≤ 31 → sl.toNat ≤ 31 →
        EncStores (.encElro p st m sl) s 12 fun j =>
          if j < 5 then (if m.getLsbD (4 - j) then 0 else 2)
          else if j < 10 then (if sl.getLsbD (9 - j) then 0 else 2)
          else if j = 10 then (if st = .on then 0 else 2)
          else (if st = .on then 2 else 0)) ∧
      (¬Supported p → EncRaises (.encElro p st m sl) s .unsupportedProtocol false (p.zeroExtend 8)) ∧
      (Supported p → 31 < m.toNat → EncRaises (.encElro p st m sl) s .unsupportedAddress false m) ∧
      (Supported p → m.toNat ≤ 31 → 31 < sl.toNat → EncRaises (.encElro p st m sl) s .unsupportedAddress true sl))

/-- R136: the codeword of ENC.IT over the configured IT_TAB, and each of its errors, for every operand. R137: every
configuration has the entries 0, 1 and 15 that the source gives, and its own between; the default after reset, for those
the model's choice, is the spec's filling D10 (log 17). That the configuration stands in State is log 33. -/
def Obligations.EncItStoresItsCodewordOrRaises : Prop :=
  (∀ t : EncTables,
    (itTabOf t)[0].toList = [.zero, .zero, .zero, .zero] ∧ (itTabOf t)[1].toList = [.float, .zero, .zero, .zero] ∧
    (itTabOf t)[15].toList = [.float, .float, .float, .float] ∧
    ∀ (k : Nat) (hk : k < 13), (itTabOf t)[k + 2] = t.itOpen[k]) ∧
  (∀ (k j : Nat) (hk : k < 16) (hj : j < 4),
    (itTabOf State.reset.tables)[k][j] = if k.testBit j then .float else .zero) ∧
  (∀ w : Word, w &&& 0xFF = 0x11 → decodeCommand w = .ok (.encIt (w.extractLsb' 8 4) (if w.getLsbD 12 then .on else .off)
    (w.extractLsb' 16 8) (w.extractLsb' 24 8))) ∧
  (∀ (p : BitVec 4) (st : Status) (m sl : BitVec 8) (s : State),
      (∀ (hm : m.toNat < 16) (hs : sl.toNat - 1 < 16), Supported p → 1 ≤ sl.toNat →
        EncStores (.encIt p st m sl) s 12 fun j =>
          if h : j < 4 then symbolCode ((itTabOf s.tables)[m.toNat][j])
          else if h : j < 8 then symbolCode ((itTabOf s.tables)[sl.toNat - 1][j - 4])
          else if j = 8 then 0
          else if j = 9 ∨ j = 10 then 2
          else (if st = .on then 2 else 0)) ∧
      (¬Supported p → EncRaises (.encIt p st m sl) s .unsupportedProtocol false (p.zeroExtend 8)) ∧
      (Supported p → 15 < m.toNat → EncRaises (.encIt p st m sl) s .unsupportedAddress false m) ∧
      (Supported p → m.toNat ≤ 15 → sl.toNat = 0 ∨ 16 < sl.toNat → EncRaises (.encIt p st m sl) s .unsupportedAddress true sl))

/-- R140: the codeword of ENC.ITPAR over the configured PAR_M and PAR_S, and each of its errors, for every operand. R141:
every configuration has the entry PAR_M[0] that the source gives, and its own else; the default after reset, for those the
model's choice, is the spec's one-hot filling D11 (log 18). That the configuration stands in State is log 33. -/
def Obligations.EncItParStoresItsCodewordOrRaises : Prop :=
  (∀ t : EncTables,
    (parMOf t)[0].toList = [.one, .float, .float, .float] ∧ (∀ (k : Nat) (hk : k < 3), (parMOf t)[k + 1] = t.parMOpen[k]) ∧
    parSOf t = t.parSOpen) ∧
  (∀ (k j : Nat) (hk : k < 4) (hj : j < 4), (parMOf State.reset.tables)[k][j] = if j = k then .one else .float) ∧
  (∀ (k j : Nat) (hk : k < 3) (hj : j < 3), (parSOf State.reset.tables)[k][j] = if j = k then .one else .float) ∧
  (∀ w : Word, w &&& 0xFF = 0x21 → decodeCommand w = .ok (.encItPar (w.extractLsb' 8 4) (if w.getLsbD 12 then .on else .off)
    (w.extractLsb' 16 8) (w.extractLsb' 24 8))) ∧
  (∀ (p : BitVec 4) (st : Status) (m sl : BitVec 8) (s : State),
      (∀ (hm : m.toNat < 4) (hs : sl.toNat - 1 < 3), Supported p → 1 ≤ sl.toNat →
        EncStores (.encItPar p st m sl) s 12 fun j =>
          if h : j < 4 then symbolCode ((parMOf s.tables)[m.toNat][j])
          else if h : j < 7 then symbolCode ((parSOf s.tables)[sl.toNat - 1][j - 4])
          else if j < 10 then 2
          else (if st = .on then 2 else 0)) ∧
      (¬Supported p → EncRaises (.encItPar p st m sl) s .unsupportedProtocol false (p.zeroExtend 8)) ∧
      (Supported p → 3 < m.toNat → EncRaises (.encItPar p st m sl) s .unsupportedAddress false m) ∧
      (Supported p → m.toNat ≤ 3 → sl.toNat = 0 ∨ 3 < sl.toNat → EncRaises (.encItPar p st m sl) s .unsupportedAddress true sl))

/-- R143: the codeword of ENC.DARIO over the open status patterns, and each of its errors, for every operand. -/
def Obligations.EncDarioStoresItsCodewordOrRaises : Prop :=
  (∀ w : Word, w &&& 0xFF = 0x31 → decodeCommand w = .ok (.encDario (w.extractLsb' 8 4) (if w.getLsbD 12 then .on else .off)
    (w.extractLsb' 16 8) (w.extractLsb' 24 8))) ∧
  (∀ (p : BitVec 4) (st : Status) (m sl : BitVec 8) (s : State),
      (Supported p → m.toNat ≤ 63 → sl.toNat ≤ 63 →
        EncStores (.encDario p st m sl) s 21 fun j =>
          if j = 0 then 0
          else if j < 7 then (if m.getLsbD (6 - j) then 0 else 2)
          else if j < 13 then (if sl.getLsbD (12 - j) then 0 else 2)
          else if h : j - 13 < 8 then symbolCode (if st = .on then Config.darioOn ⟨j - 13, h⟩ else Config.darioOff ⟨j - 13, h⟩)
          else 0) ∧
      (¬Supported p → EncRaises (.encDario p st m sl) s .unsupportedProtocol false (p.zeroExtend 8)) ∧
      (Supported p → 63 < m.toNat → EncRaises (.encDario p st m sl) s .unsupportedAddress false m) ∧
      (Supported p → m.toNat ≤ 63 → 63 < sl.toNat → EncRaises (.encDario p st m sl) s .unsupportedAddress true sl))

/-- R146: both rows of ENC.UNDEF raise UnsupportedProtocol for an unsupported protocol and UnsupportedVendor otherwise,
whatever ST, MASTER and SLAVE are. -/
def Obligations.EncUndefRaisesUnsupportedVendor : Prop :=
  (∀ w : Word, w &&& 0xCF = 0x41 → decodeCommand w = .ok (.encUndefLow (w.extractLsb' 4 4) (w.extractLsb' 8 4)
    (if w.getLsbD 12 then .on else .off) (w.extractLsb' 16 8) (w.extractLsb' 24 8))) ∧
  (∀ w : Word, w &&& 0x8F = 0x81 → decodeCommand w = .ok (.encUndefHigh (w.extractLsb' 4 4) (w.extractLsb' 8 4)
    (if w.getLsbD 12 then .on else .off) (w.extractLsb' 16 8) (w.extractLsb' 24 8))) ∧
  (∀ (fam p : BitVec 4) (st : Status) (m sl : BitVec 8) (s : State),
      (Supported p →
        EncRaises (.encUndefLow fam p st m sl) s .unsupportedVendor false (fam.zeroExtend 8) ∧
        EncRaises (.encUndefHigh fam p st m sl) s .unsupportedVendor false (fam.zeroExtend 8)) ∧
      (¬Supported p →
        EncRaises (.encUndefLow fam p st m sl) s .unsupportedProtocol false (p.zeroExtend 8) ∧
        EncRaises (.encUndefHigh fam p st m sl) s .unsupportedProtocol false (p.zeroExtend 8)))

/-- R131, R148: what an ENC writes is a function of its command and the constant tables alone: two states with one
configuration of the tables give the same ENCSTAT, the same CW where it succeeds, and each keeps its own CW where it fails;
ENCSTAT is the same whatever the tables hold, and no step changes them (R20; in State by log 33). -/
def Obligations.EncodingDependsOnTheCommandAlone : Prop :=
  (∀ s t : State, step s = .next t → t.tables = s.tables) ∧
  ∀ (i : Instr) (s1 s2 : State), isEncode i = true →
    ∃ t1 t2, exec i s1 = .next t1 ∧ exec i s2 = .next t2 ∧ t1.encStat = t2.encStat ∧ t1.encStat.done = true ∧
      (t1.encStat.err = .ok → s1.tables = s2.tables → t1.cw = t2.cw) ∧ (t1.encStat.err ≠ .ok → t1.cw = s1.cw ∧ t2.cw = s2.cw)

/-- R28, R131: the frame of every ENC: only CW and ENCSTAT change; every other register reads as before. -/
def Obligations.EncodeFrame : Prop :=
  ∀ (i : Instr) (s t : State), isEncode i = true → exec i s = .next t →
    t = { s with cw := t.cw, encStat := t.encStat } ∧
    (∀ k : BitVec 4, k = 0 ∨ 5 ≤ k.toNat → readReg k t = readReg k s) ∧
    (t.encStat.err ≠ .ok → ∀ k : BitVec 4, k ≠ 4 → readReg k t = readReg k s)

/-- R148: the alphabet of the ElroPollin and Intertechno codewords is Zero and Float, for every address, and the One
symbol of Intertechno PAR stands in its address part only, its Zero in the off pair only. The Intertechno clauses
hold for every configuration whose open entries keep these alphabets, the default of R137 and R141 among them (log 17,
log 18, log 33). -/
def Obligations.EncoderAlphabets : Prop :=
  (∀ (m sl : BitVec 8) (st : Status), .one ∉ elroCodeword m sl st) ∧
  AlphabetKept State.reset.tables ∧
  (∀ (t : EncTables) (m sl : BitVec 8) (st : Status), AlphabetKept t →
    .one ∉ itCodeword (itTabOf t) m sl st ∧
    .one ∉ (itParCodeword (parMOf t) (parSOf t) m sl st).drop 7 ∧
    .zero ∉ itParCodeword (parMOf t) (parSOf t) m sl .on ∧
    (m.toNat ≤ 3 → 1 ≤ sl.toNat → sl.toNat ≤ 3 →
      .zero ∉ (itParCodeword (parMOf t) (parSOf t) m sl .off).take 10 ∧
      (itParCodeword (parMOf t) (parSOf t) m sl .off).drop 10 = [.zero, .zero]))

/-! ## The register port -/

/-- R61: a read gives HOST the register's content and changes nothing else. `beginTurn` and reg_rdata are the model's (log 6,
log 12). -/
def Obligations.HostReadHasNoSideEffect : Prop :=
  ∀ (s : State) (k : BitVec 4) (rest : List HostOp), nextTurn s = .host → s.held = none → s.hostProg = .read k :: rest →
    step s = .next { beginTurn s with hostProg := rest, regRdata := readReg k (beginTurn s) }

/-- R21, R62, R67: what a written register reads back, that the write of one register leaves every other as it was, and
that a write to a read-only or reserved register has no effect. -/
def Obligations.RegisterWritesReadBack : Prop :=
  ∀ (s : State) (v : Word),
    readReg 1 (hostWrite 1 v s) = v &&& 0x0000001F ∧
    readReg 2 (hostWrite 2 v s) = v ∧
    readReg 3 (hostWrite 3 v s) = v &&& 0x3FFFFFFF ∧
    (∀ k j : BitVec 4, j ≠ k → readReg j (hostWrite k v s) = readReg j s) ∧
    (∀ k : BitVec 4, 4 ≤ k.toNat → hostWrite k v s = s)

/-- R62: HOST's write of a register other than CMD, as a step: at any time, whatever STATE is. `beginTurn` is the
model's (log 6). -/
def Obligations.HostWriteOfRegisterIsPerformed : Prop :=
  ∀ (s : State) (k : BitVec 4) (v : Word) (rest : List HostOp), nextTurn s = .host → s.held = none →
    s.hostProg = .write k v :: rest → k ≠ 0 →
    step s = .next (hostWrite k v { beginTurn s with hostProg := rest }) ∧
    (k = 1 → (hostWrite k v s).cw.len = v.extractLsb' 0 5 ∧ (hostWrite k v s).cw.sym = s.cw.sym) ∧
    (k = 2 → (hostWrite k v s).cw.len = s.cw.len ∧
      ∀ i, i < 31 → (hostWrite k v s).cw.slot i = if i < 16 then v.extractLsb' (2 * i) 2 else s.cw.slot i) ∧
    (k = 3 → (hostWrite k v s).cw.len = s.cw.len ∧
      ∀ i, i < 31 → (hostWrite k v s).cw.slot i = if i < 16 then s.cw.slot i else v.extractLsb' (2 * (i - 16)) 2)

/-- R65: symbol i of CW stands at bits [2j+1:2j] of CW_LO or CW_HI, j = i mod 16. -/
def Obligations.SymbolsStandInPackedOrder : Prop :=
  ∀ (s : State) (i : Nat),
    (i < 16 → (readReg 2 s).extractLsb' (2 * (i % 16)) 2 = s.cw.slot i) ∧
    (16 ≤ i → i < 31 → (readReg 3 s).extractLsb' (2 * (i % 16)) 2 = s.cw.slot i)

/-- R35, R37, and the layout of R27: the fields of ENCSTAT, TXSTAT and TXPOS at their bits, reserved bits 0, and all three
words 0 after reset. R21, R40, R61: WRCNT and CW_LEN read their content, CMD and the reserved registers read 0. -/
def Obligations.StatusWordsHoldTheirFields : Prop :=
  readReg 4 State.reset = 0 ∧ readReg 5 State.reset = 0 ∧ readReg 7 State.reset = 0 ∧ ∀ s : State,
    (readReg 4 s &&& 0xFF00E0F7 = 0 ∧ (readReg 4 s).getLsbD 3 = s.encStat.done ∧
      (readReg 4 s).extractLsb' 8 4 = errBits s.encStat.err ∧ (readReg 4 s).getLsbD 12 = s.encStat.which ∧
      (readReg 4 s).extractLsb' 16 8 = s.encStat.val) ∧
    (readReg 5 s &&& 0xFF00F080 = 0 ∧ (readReg 5 s).extractLsb' 0 2 = stateBits s.seqState ∧
      (readReg 5 s).getLsbD 2 = decide (s.seqState ≠ .idle) ∧ (readReg 5 s).getLsbD 3 = s.txStat.done ∧
      (readReg 5 s).getLsbD 4 = s.exported ∧ (readReg 5 s).getLsbD 5 = decide (s.line = .high) ∧
      (readReg 5 s).getLsbD 6 = s.cancelPend ∧ (readReg 5 s).extractLsb' 8 4 = errBits s.txStat.err ∧
      (readReg 5 s).extractLsb' 16 8 = s.txStat.val) ∧
    (readReg 7 s &&& 0xFF000000 = 0 ∧ (readReg 7 s).extractLsb' 0 16 = s.pos.r ∧
      (readReg 7 s).extractLsb' 16 5 = s.pos.i ∧ (readReg 7 s).extractLsb' 21 2 = s.pos.ph ∧
      (readReg 7 s).getLsbD 23 = decide (s.pos.sub = .wait)) ∧
    readReg 6 s = s.wrcnt ∧ readReg 1 s = s.cw.len.zeroExtend 32 ∧ readReg 0 s = 0 ∧
    (∀ k : BitVec 4, 8 ≤ k.toNat → readReg k s = 0)

/-- R110: the three writes of `ldcw` leave in CW the codeword, with 0 in the unused slots. -/
def Obligations.LoadedCodewordIsHeld : Prop :=
  ∀ (w : List Symbol) (s : State), w.length ≤ 31 →
    ∃ v1 v2 v3, ldcwOps w = some [.write 1 v1, .write 2 v2, .write 3 v3] ∧
      hostWrite 3 v3 (hostWrite 2 v2 (hostWrite 1 v1 s)) = { s with cw := codewordOf w }

/-- R110, R282: `send` is the encode, the test of E_ERR over the next two items, the transmit and the wait, and it exists
exactly where both commands assemble. The step of the test reads ENCSTAT and drops the items it covers exactly after an
ENC that failed. The step of `wait.tx` reads TXSTAT and stays at the head of HOST's program exactly while BUSY = 1
(R75, R205). HOST's program as a list of items is the model's choice (log 28), and so are the four families of `send`
(log 32), `beginTurn` (log 6) and reg_rdata (log 12). -/
def Obligations.SendTransmitsOnlyAfterSuccess : Prop :=
  (∀ (f : Family) (p : Nat) (m sl : AddrOperand) (st : Status) (ops : List HostOp),
    sendOps f p m sl st = some ops ↔
      ∃ e t, assemble (.enc f p m sl st) = some e ∧ assemble (.tx p) = some t ∧
        ops = [.write 0 e, .ifEncOk 2, .write 0 t, .waitTx]) ∧
  (∀ (s : State) (n : Nat) (rest : List HostOp), nextTurn s = .host → s.held = none → s.hostProg = .ifEncOk n :: rest →
    step s = .next
      { beginTurn s with
        regRdata := readReg 4 s, hostProg := if s.encStat.err = .ok then rest else rest.drop n }) ∧
  (∀ (s : State) (rest : List HostOp), nextTurn s = .host → s.held = none → s.hostProg = .waitTx :: rest →
    step s = .next
      { beginTurn s with
        regRdata := readReg 5 (beginTurn s)
        hostProg := if s.seqState = .idle then rest else .waitTx :: rest })

/-! ## Host commands of the transmitter -/

/-- R180: NOP has no effect, in every STATE. -/
def Obligations.NopHasNoEffect : Prop :=
  (∀ w : Word, w &&& 0xF = 0x0 → decodeCommand w = .ok .nop) ∧ ∀ s : State, exec .nop s = .next s

/-- R182: acceptance of TX and TXR takes the shadow whole and clears the status; an unsupported protocol is rejected
with nothing else changed. That the model's trace starts anew is log 11; that a CW with the reserved code is refused is
another statement. -/
def Obligations.TransmitIsAcceptedOrRejected : Prop :=
  ∀ (s : State) (p : BitVec 4) (n : BitVec 16), s.seqState = .idle →
    (Supported p → CwIsCodeword s →
      exec (.tx p) s = .next
        { s with
          shadow := { cw := s.cw, proto := p, rep := 10 }, wrcnt := 0, cancelPend := false
          txStat := { done := false, err := .ok, val := 0 }, seqState := .exporting, trace := [] } ∧
      exec (.txr p n) s = .next
        { s with
          shadow := { cw := s.cw, proto := p, rep := n }, wrcnt := 0, cancelPend := false
          txStat := { done := false, err := .ok, val := 0 }, seqState := .exporting, trace := [] }) ∧
    (¬Supported p →
      exec (.tx p) s = .next { s with txStat := { done := true, err := .unsupportedProtocol, val := p.zeroExtend 8 } } ∧
      exec (.txr p n) s = .next { s with txStat := { done := true, err := .unsupportedProtocol, val := p.zeroExtend 8 } })

/-- R183: a TX or TXR while BUSY is held and changes nothing else; while one is held and BUSY is 1, HOST's turn changes
nothing but the turn taken and the pin sampled. How the held write is kept is the model's choice (log 5). -/
def Obligations.TransmitIsHeldWhileBusy : Prop :=
  (∀ (s : State) (p : BitVec 4) (n : BitVec 16), s.seqState ≠ .idle →
    exec (.tx p) s = .next { s with held := some (.tx p) } ∧
    exec (.txr p n) s = .next { s with held := some (.txr p n) }) ∧
  (∀ (s : State) (i : Instr), nextTurn s = .host → s.held = some i → s.seqState ≠ .idle →
    s.regReady = false ∧ step s = .next (beginTurn s))

/-- R93, U10: a TX or TXR that would be accepted while a slot of CW below CW.len holds the code 3 is refused. That the
protocol is tested before is the model's reading (log 15). -/
def Obligations.TransmitOfReservedCodeIsRefused : Prop :=
  ∀ (s : State) (p : BitVec 4) (n : BitVec 16) (i : Nat), s.seqState = .idle → Supported p → i < s.cw.len.toNat →
    s.cw.slot i = 3 → exec (.tx p) s = .refused .reservedSymbol ∧ exec (.txr p n) s = .refused .reservedSymbol

/-- R33, R184, R291: CANCEL latches a request while BUSY and is dropped while Idle; the pin cancel_i at 1 does the same
at the start of every step (when it is sampled is log 6), so that held at 1 it cancels an accepted transmission at its
first sequencer step, with nothing exported. -/
def Obligations.CancelIsLatchedOnlyWhileBusy : Prop :=
  ∀ s : State,
    (s.seqState ≠ .idle → exec .cancel s = .next { s with cancelPend := true }) ∧
    (s.seqState = .idle → exec .cancel s = .next s) ∧
    (s.cancelI = true → s.seqState ≠ .idle → beginTurn s = { s with turns := s.turns.tail, cancelPend := true }) ∧
    (s.cancelI = true → s.seqState = .idle → beginTurn s = { s with turns := s.turns.tail }) ∧
    (s.cancelI = true → s.seqState = .exporting → nextTurn s = .seq →
      step s = .next (Completed .cancelled { s with turns := s.turns.tail }))

/-- The frame of NOP, TX, TXR and CANCEL: CW, ENCSTAT, EXPORTED, LINE, the position, TMR and the set_line port stay;
every register but TXSTAT and WRCNT reads as before, and WRCNT too unless a TX or TXR is accepted (R180 to R185). -/
def Obligations.TransmitterCommandFrame : Prop :=
  ∀ (i : Instr) (s t : State), isCommand i = true → isEncode i = false → exec i s = .next t →
    t.cw = s.cw ∧ t.encStat = s.encStat ∧ t.exported = s.exported ∧ t.line = s.line ∧ t.pos = s.pos ∧ t.tmr = s.tmr ∧
    t.slReq = s.slReq ∧ t.slVal = s.slVal ∧ t.regRdata = s.regRdata ∧ t.pin = s.pin ∧
    (∀ k : BitVec 4, k ≠ 5 → k ≠ 6 → readReg k t = readReg k s) ∧
    (t.shadow ≠ s.shadow ∨ readReg 6 t ≠ readReg 6 s → s.seqState = .idle ∧ t.seqState = .exporting)

/-! ## The sequencer -/

/-- R186: the Exporting step. `beginTurn` and the trace are the model's (log 6, log 11), and so is the pin's level, which is
not known once line_en has risen (U15, log 10). -/
def Obligations.ExportingStep : Prop :=
  ∀ s : State, nextTurn s = .seq → s.seqState = .exporting →
    ((beginTurn s).cancelPend = true → step s = .next (Completed .cancelled (beginTurn s))) ∧
    ((beginTurn s).cancelPend = false → s.shadow.rep = 0 →
      step s = .next
        (Completed .ok
          { beginTurn s with
            exported := true, pin := if s.exported = true then s.pin else none, trace := s.trace ++ [.exported] })) ∧
    ((beginTurn s).cancelPend = false → s.shadow.rep ≠ 0 →
      step s = .next
        { beginTurn s with
          exported := true, pin := if s.exported = true then s.pin else none, trace := s.trace ++ [.exported]
          pos := { r := 0, i := 0, ph := 0, sub := .write }, seqState := .framing })

/-- R194: the Repeating step. `beginTurn` is the model's (log 6). -/
def Obligations.RepeatingStep : Prop :=
  ∀ s : State, nextTurn s = .seq → s.seqState = .repeating →
    ((beginTurn s).cancelPend = true → step s = .next (Completed .cancelled (beginTurn s))) ∧
    ((beginTurn s).cancelPend = false → s.pos.r + 1 < s.shadow.rep →
      step s = .next
        { beginTurn s with pos := { r := s.pos.r + 1, i := 0, ph := 0, sub := .write }, seqState := .framing }) ∧
    ((beginTurn s).cancelPend = false → ¬s.pos.r + 1 < s.shadow.rep →
      step s = .next (Completed .ok { beginTurn s with pos := { s.pos with r := s.pos.r + 1 } }))

/-- R188, R189: the write step of each primitive issues its request: WRCNT counts it, sl_req rises, sl_val is High in the
even phases and Low in the odd ones; nothing else changes. Sync has phases 0 and 1 only. That LINE's answer is a step of its own is
the model's reading (log 4). -/
def Obligations.PrimitiveIssuesItsRequest : Prop :=
  ∀ s : State, s.pos.sub = .write → s.slReq = false → s.cancelPend = false →
    let t : State := { s with
      wrcnt := s.wrcnt + 1, slReq := true, slVal := if s.pos.ph = 0 ∨ s.pos.ph = 2 then .high else .low }
    exec .zero s = .next t ∧ exec .one s = .next t ∧ exec .float s = .next t ∧ (s.pos.ph ≤ 1 → exec .sync s = .next t)

/-- R161 to R163, R191, R192: the wait step of ZERO, ONE and FLOAT emits a wait of the units of R188's table and moves to
the next phase, or after phase 3 to the next primitive. That TMR is then 0, and the trace as a field, are the model's (log 7,
log 11). -/
def Obligations.SymbolWaitEndsAndAdvances : Prop :=
  ∀ s : State, s.pos.sub = .wait → s.cancelPend = false →
    let t (k : Nat) : State := { s with
      tmr := 0, trace := s.trace ++ [.wait k s.shadow.proto]
      pos := if s.pos.ph = 3 then { s.pos with i := s.pos.i + 1, ph := 0, sub := .write }
             else { s.pos with ph := s.pos.ph + 1, sub := .write } }
    s.pos.i < s.shadow.cw.len →
      exec .zero s = .next (t (if s.pos.ph = 0 ∨ s.pos.ph = 2 then 1 else 3)) ∧
      exec .one s = .next (t (if s.pos.ph = 0 ∨ s.pos.ph = 2 then 3 else 1)) ∧
      exec .float s = .next (t (if s.pos.ph = 0 ∨ s.pos.ph = 3 then 1 else 3))

/-- R164, R192: the wait step of SYNC: 1 unit after its mark; SYNC_RATIO units (31, 10, 71) after its space, and then the
frame is complete and STATE is Repeating. TMR and the trace as log 7 and log 11 say. -/
def Obligations.SyncWaitEndsAndAdvances : Prop :=
  ∀ s : State, s.pos.sub = .wait → s.cancelPend = false → Supported s.shadow.proto →
    (s.pos.ph = 0 →
      exec .sync s = .next
        { s with tmr := 0, trace := s.trace ++ [.wait 1 s.shadow.proto], pos := { s.pos with ph := 1, sub := .write } }) ∧
    (s.pos.ph = 1 → s.pos.i = s.shadow.cw.len →
      exec .sync s = .next
        { s with
          tmr := 0, seqState := .repeating
          trace := s.trace ++
            [.wait (if s.shadow.proto = 1 then 31 else if s.shadow.proto = 2 then 10 else 71) s.shadow.proto] })

/-- R41, R189: LINE's answer Ok: LINE takes the requested level, the wait begins and TMR holds
`units × UNIT_US × F_CLK_HZ / 10^6`. The units are those of R188's table; the unit is UNIT_US of the protocol: 350 for
protocol 1, open and at least 1 for protocols 2 and 3, with no row for any other (R8, R98, R166; log 20, log 22); F_CLK_HZ
is a multiple of 10^6 (R8). The step of its own, TMR, the pin's level and the trace are the model's (log 4, log 7, log 10,
log 11). -/
def Obligations.AnswerOkBeginsTheWait : Prop :=
  (∀ (s : State) (rest : List Answer) (prim : Prim) (row : ProtocolRow) (k : Nat), nextTurn s = .line → s.slReq = true →
    s.answers = .ok :: rest → currentPrim s = some prim → protocolRow s.shadow.proto = some row →
    unitsOf prim s.shadow.proto s.pos.ph = .ok k →
    step s = .next
      { beginTurn s with
        answers := rest, slReq := false, line := s.slVal, pin := some s.slVal, pos := { s.pos with sub := .wait }
        tmr := k * row.unitUs * clkHz / 1000000, trace := s.trace ++ [.set s.slVal .ok] }) ∧
  (∀ (p : BitVec 4) (ph : BitVec 2),
    unitsOf (.sym .zero) p ph = .ok (if ph = 0 ∨ ph = 2 then 1 else 3) ∧
    unitsOf (.sym .one) p ph = .ok (if ph = 0 ∨ ph = 2 then 3 else 1) ∧
    unitsOf (.sym .float) p ph = .ok (if ph = 0 ∨ ph = 3 then 1 else 3)) ∧
  (∀ (p : BitVec 4) (row : ProtocolRow), protocolRow p = some row →
    unitsOf .sync p 0 = .ok 1 ∧ unitsOf .sync p 1 = .ok row.syncRatio) ∧
  (∃ r1 r2 r3, protocolRow 1 = some r1 ∧ protocolRow 2 = some r2 ∧ protocolRow 3 = some r3 ∧
    r1.unitUs = 350 ∧ 1 ≤ r2.unitUs ∧ 1 ≤ r3.unitUs ∧ r1.syncRatio = 31 ∧ r2.syncRatio = 10 ∧ r3.syncRatio = 71) ∧
  (∀ p : BitVec 4, ¬Supported p → protocolRow p = none) ∧ clkHz % 1000000 = 0

/-- R190, R234, R241: LINE's answer Error ends the transmission with LineWriteFailed at once: LINE, the position and
WRCNT keep their values, a pending cancel is discarded, the pin's level is then any value (R283). The step of its
own, the pin's level and the trace are the model's (log 4, log 10, log 11). -/
def Obligations.AnswerErrorEndsTheTransmission : Prop :=
  ∀ (s : State) (rest : List Answer), nextTurn s = .line → s.slReq = true → s.answers = .error :: rest →
    step s = .next
      (Completed .lineWriteFailed
        { beginTurn s with answers := rest, pin := none, trace := s.trace ++ [.set s.slVal .error] })

/-- R200, R241, R285: an answer while no request is outstanding is ignored; a request that is outstanding is not
interrupted, and without an answer the sequencer stays in the write step: its turn changes nothing, whether or not a
cancel is pending. Turns and their sampling are the model's (log 3, log 4, log 6). -/
def Obligations.RequestAndAnswerGoTogether : Prop :=
  (∀ (s : State) (a : Answer) (rest : List Answer), nextTurn s = .line → s.slReq = false → s.answers = a :: rest →
    step s = .next { beginTurn s with answers := rest }) ∧
  (∀ s : State, nextTurn s = .seq → s.seqState = .framing → s.pos.sub = .write → s.slReq = true → ShadowValid s →
    s.pos.i ≤ s.shadow.cw.len → step s = .next (beginTurn s)) ∧
  (∀ s : State, nextTurn s = .line → s.answers = [] → step s = .next (beginTurn s))

/-- R198: in Exporting, in Framing with no request outstanding, and in Repeating, a sequencer step that finds CANCEL_PEND
completes with Cancelled and does nothing else. `beginTurn` is the model's (log 6). -/
def Obligations.PendingCancelEndsTheTransmission : Prop :=
  ∀ s : State, nextTurn s = .seq → s.seqState ≠ .idle → s.slReq = false → ShadowValid s → s.pos.i ≤ s.shadow.cw.len →
    (beginTurn s).cancelPend = true → step s = .next (Completed .cancelled (beginTurn s))

/-- R41: a clock cycle counts TMR down by one in a wait, and changes nothing else. How TMR is held and stepped is the model's
(log 7). -/
def Obligations.ClockCountsTheTimerDown : Prop :=
  ∀ s : State, nextTurn s = .clock →
    (s.seqState = .framing → s.pos.sub = .wait → step s = .next { beginTurn s with tmr := s.tmr - 1 }) ∧
    (¬(s.seqState = .framing ∧ s.pos.sub = .wait) → step s = .next (beginTurn s))

/-- The frame of the primitives: CW, ENCSTAT, EXPORTED, LINE, the shadow and the held write stay, and every register but
TXSTAT, WRCNT and TXPOS reads as before (R160 to R165, R189 to R192). That LINE and the pin stay, and that nothing changes
while the request is outstanding, is the model's choice: a primitive is run one event at a time (log 27), and LINE is
written by the answer to its request, a step of LINE's own (log 4), stated by AnswerOkBeginsTheWait. -/
def Obligations.PrimitiveFrame : Prop :=
  ∀ (i : Instr) (prim : Prim) (s t : State), primOf i = some prim → exec i s = .next t →
    t.cw = s.cw ∧ t.encStat = s.encStat ∧ t.exported = s.exported ∧ t.line = s.line ∧ t.shadow = s.shadow ∧
    t.held = s.held ∧ t.regRdata = s.regRdata ∧ t.pin = s.pin ∧ t.pos.r = s.pos.r ∧
    (∀ k : BitVec 4, k.toNat < 5 ∨ 8 ≤ k.toNat → readReg k t = readReg k s) ∧
    (s.slReq = true → s.pos.sub = .write → t = s)

/-- R77, R204: what the sequencer, LINE, the pin and the clock do does not depend on CW or ENCSTAT: replacing both gives
the same step with both replaced. -/
def Obligations.TransmissionIgnoresTheEncoderRegisters : Prop :=
  ∀ (s t : State) (c : Codeword) (e : EncStatus), nextTurn s ≠ .host → nextTurn s ≠ .rst → step s = .next t →
    step { s with cw := c, encStat := e } = .next { t with cw := c, encStat := e }

/-! ## Whole segments and transmissions -/

/-- R161 to R164: one primitive from its first phase to its end, LINE answering Ok and no cancel: its trace is its
waveform segment, it issues four writes (Sync two), it ends with LINE low, and the position moves on. The lists
of turns and answers and the trace are the model's (log 1, log 4, log 11). -/
def Obligations.PrimitiveSendsItsSegment : Prop :=
  ∀ (s : State) (prim : Prim) (row : ProtocolRow) (n : Nat) (as : List Answer) (rest : List Turn),
    s.seqState = .framing → s.pos.ph = 0 → s.pos.sub = .write → s.slReq = false → s.cancelPend = false → s.cancelI = false →
    s.pos.i ≤ s.shadow.cw.len → currentPrim s = some prim → protocolRow s.shadow.proto = some row →
    n = (if prim = .sync then 2 else 4) → s.turns = (List.replicate n phaseTurns).flatten ++ rest →
    s.answers = List.replicate n .ok ++ as →
    ∃ t, runSteps (3 * n) s = .next t ∧ t.trace = s.trace ++ segment row s.shadow.proto prim ∧
      t.wrcnt = s.wrcnt + BitVec.ofNat 32 n ∧ t.line = .low ∧ t.turns = rest ∧ t.answers = as ∧ t.slReq = false ∧
      t.shadow = s.shadow ∧
      (prim = .sync → t.seqState = .repeating ∧ t.pos = { s.pos with ph := 1, sub := .wait }) ∧
      (prim ≠ .sync → t.seqState = .framing ∧ t.pos = { s.pos with i := s.pos.i + 1, ph := 0, sub := .write })

/-- R195, R202: a whole transmission of k frames of the codeword w, LINE answering Ok and no cancel: from Exporting it
reaches Idle, its trace is Export and k frames, WRCNT is k(4n+2), R is k, the status is Ok, and with k ≥ 1 LINE is low. The
lists and the trace are the model's (log 1, log 4, log 11). -/
def Obligations.TransmissionSendsItsFrames : Prop :=
  ∀ (s : State) (w : List Symbol) (row : ProtocolRow) (k : Nat) (as : List Answer) (rest : List Turn),
    s.seqState = .exporting → s.wrcnt = 0 → s.slReq = false → s.cancelPend = false → s.cancelI = false →
    s.shadow.cw.symbols = some w → protocolRow s.shadow.proto = some row → s.shadow.rep.toNat = k →
    s.turns = transmissionTurns w.length k ++ rest →
    s.answers = List.replicate (k * frameWrites w.length) .ok ++ as →
    ∃ t, runSteps (transmissionTurns w.length k).length s = .next t ∧
      t.seqState = .idle ∧ t.txStat = { done := true, err := .ok, val := 0 } ∧ t.exported = true ∧
      t.trace = s.trace ++ transmissionEvents row s.shadow.proto w k ∧
      t.wrcnt.toNat = k * frameWrites w.length ∧ t.cw = s.cw ∧ t.turns = rest ∧ t.answers = as ∧
      (1 ≤ k → t.pos.r.toNat = k ∧ t.line = .low) ∧ (k = 0 → t.pos = s.pos ∧ t.line = s.line)

/-- R168: a frame of n symbols lasts 8n + 1 + SYNC_RATIO units and has 4n + 2 line writes; n + 1 segments. -/
def Obligations.FrameLengthAndWrites : Prop :=
  ∀ (p : BitVec 4) (row : ProtocolRow) (w : List Symbol),
    traceUnits (frameEvents row p w) = 8 * w.length + 1 + row.syncRatio ∧
    traceWrites (frameEvents row p w) = 4 * w.length + 2 ∧ (framePrims w).length = w.length + 1

/-- R169, R296: the real duration of a wait is at least its nominal one and at most JITTER_US later; R167: in clock
cycles the wait is an exact product. The lateness is an open constant; that durations are whole
microseconds is the model's choice (log 21). -/
def Obligations.WaitDurationsAreBounded : Prop :=
  ∀ (row : ProtocolRow) (n k : Nat),
    nominalUs row k ≤ realUs row n k ∧ realUs row n k ≤ nominalUs row k + Config.jitterUs ∧
    waitCycles k row = nominalUs row k * Config.clkMHz
end

