-- ==== Sys2Proof/Laws/Directives.lean ====
section
/-! SUPPORT. What HOST's directives read in a status word, what their items do, and which numbers fit a field of an
assembler line. -/

namespace Sys2Proof.Machine

@[simp] theorem errBits_eq_zero_iff (e : ErrCode) : errBits e = 0 ↔ e = .ok := by cases e <;> decide

/-- E_ERR read from ENCSTAT is the code held (R27). -/
@[simp] theorem encErrOfWord_encStatWord (e : EncStatus) : encErrOfWord (encStatWord e) = errBits e.err := by
  apply BitVec.eq_of_getLsbD_eq
  intro i hi
  rw [encErrOfWord, BitVec.getLsbD_extractLsb']
  change (decide (i < 4) && BitVec.getLsbD (w := 8 + 8 + 3 + 1 + 4 + 4 + 1 + 3) ((0 : BitVec 8) ++ e.val ++ (0 : BitVec 3) ++
    BitVec.ofBool e.which ++ errBits e.err ++ (0 : BitVec 4) ++ BitVec.ofBool e.done ++ (0 : BitVec 3)) (8 + i)) = _
  interval_cases i <;> simp only [BitVec.getLsbD_append] <;> rfl

/-- BUSY read from TXSTAT is BUSY (R30, R35). -/
@[simp] theorem busyOfWord_txStatWord (s : State) : busyOfWord (txStatWord s) = s.busy := by
  change BitVec.getLsbD (w := 8 + 8 + 4 + 4 + 1 + 1 + 1 + 1 + 1 + 1 + 2) ((0 : BitVec 8) ++ s.txStat.val ++ (0 : BitVec 4) ++
    errBits s.txStat.err ++ (0 : BitVec 1) ++ BitVec.ofBool s.cancelPend ++ levelBit s.line ++ BitVec.ofBool s.exported ++
    BitVec.ofBool s.txStat.done ++ BitVec.ofBool s.busy ++ stateBits s.seqState) 2 = _
  simp only [BitVec.getLsbD_append]
  cases s.busy <;> rfl

/-- The item `wait.tx`: a read of TXSTAT, and the item again while BUSY (R110). -/
theorem hostOp_waitTx (run : Run) (s : State) :
    hostOp run .waitTx s =
      .next { s with
        regRdata := readReg 5 s
        hostProg := if s.busy = true then .waitTx :: s.hostProg else s.hostProg } := by
  have h : busyOfWord (readReg 5 s) = s.busy := busyOfWord_txStatWord s
  simp only [hostOp, hostRead, h]
  split <;> rfl

/-- The item of `send`'s test: a read of ENCSTAT, and n items dropped after an ENC that failed (R110). -/
theorem hostOp_ifEncOk (run : Run) (n : Nat) (s : State) :
    hostOp run (.ifEncOk n) s =
      .next { s with
        regRdata := readReg 4 s
        hostProg := if s.encStat.err = .ok then s.hostProg else s.hostProg.drop n } := by
  have h : encErrOfWord (readReg 4 s) = errBits s.encStat.err := encErrOfWord_encStatWord s.encStat
  simp only [hostOp, hostRead, h, errBits_eq_zero_iff]
  split <;> rfl

theorem fits_of_lt {n v : Nat} (h : v < 2 ^ n) : fits n v = some (BitVec.ofNat n v) := if_pos h

theorem fits_of_ge {n v : Nat} (h : 2 ^ n ≤ v) : fits n v = none := if_neg (Nat.not_lt.mpr h)

/-- Letters outside A to P have no index (R104). -/
theorem letterIndex_eq_none {c : Char} (h : c.toNat < 65 ∨ 80 < c.toNat) : letterIndex c = none := by
  have hc : ¬(65 ≤ c.toNat ∧ c.toNat ≤ 80) := by omega
  exact if_neg hc

end Sys2Proof.Machine
end

