-- ==== Sys2Proof/Laws/Encoding.lean ====
section
/-! SUPPORT. The fields of the three formats, read back from the words they build (R101 to R103). -/

namespace Sys2Proof

@[simp] theorem statusOfBit_statusBit (st : Status) : statusOfBit (statusBit st) = st := by
  cases st <;> rfl

/-- The bits of format E, field by field (R101). -/
theorem formatE_getLsbD (f p : BitVec 4) (st : Status) (m s : BitVec 8) (j : Nat) :
    (formatE f p st m s).getLsbD j =
      if j < 4 then (1 : BitVec 4).getLsbD j
      else if j < 8 then f.getLsbD (j - 4)
      else if j < 12 then p.getLsbD (j - 8)
      else if j < 13 then (statusBit st).getLsbD (j - 12)
      else if j < 16 then false
      else if j < 24 then m.getLsbD (j - 16)
      else s.getLsbD (j - 24) := by
  change BitVec.getLsbD (w := 8 + 8 + 3 + 1 + 4 + 4 + 4) (s ++ m ++ (0 : BitVec 3) ++ statusBit st ++ p ++ f ++ (1 : BitVec 4)) j = _
  simp only [BitVec.getLsbD_append, Nat.sub_sub]
  have h1 : (j - 4 < 4) ↔ j < 8 := by omega
  have h2 : (j - (4 + 4) < 4) ↔ j < 12 := by omega
  have h3 : (j - (4 + 4 + 4) < 1) ↔ j < 13 := by omega
  have h4 : (j - (4 + 4 + 4 + 1) < 3) ↔ j < 16 := by omega
  have h5 : (j - (4 + 4 + 4 + 1 + 3) < 8) ↔ j < 24 := by omega
  simp only [h1, h2, h3, h4, h5]
  repeat' split
  all_goals simp

/-- The bits of format T, field by field (R102). -/
theorem formatT_getLsbD (op p : BitVec 4) (n : BitVec 16) (j : Nat) :
    (formatT op p n).getLsbD j =
      if j < 4 then op.getLsbD j
      else if j < 8 then false
      else if j < 12 then p.getLsbD (j - 8)
      else if j < 16 then false
      else n.getLsbD (j - 16) := by
  change BitVec.getLsbD (w := 16 + 4 + 4 + 4 + 4) (n ++ (0 : BitVec 4) ++ p ++ (0 : BitVec 4) ++ op) j = _
  simp only [BitVec.getLsbD_append, Nat.sub_sub]
  have h1 : (j - 4 < 4) ↔ j < 8 := by omega
  have h2 : (j - (4 + 4) < 4) ↔ j < 12 := by omega
  have h3 : (j - (4 + 4 + 4) < 4) ↔ j < 16 := by omega
  simp only [h1, h2, h3]
  repeat' split
  all_goals simp

/-- The bits of format C (R103). -/
theorem formatC_getLsbD (op : BitVec 4) (j : Nat) : (formatC op).getLsbD j = if j < 4 then op.getLsbD j else false := by
  change BitVec.getLsbD (w := 28 + 4) ((0 : BitVec 28) ++ op) j = _
  simp only [BitVec.getLsbD_append]
  split <;> simp

theorem formatE_op (f p : BitVec 4) (st : Status) (m s : BitVec 8) : (formatE f p st m s).extractLsb' 0 4 = 1 := by
  apply BitVec.eq_of_getLsbD_eq
  intro i hi
  simp [formatE_getLsbD, hi]

theorem formatE_fam (f p : BitVec 4) (st : Status) (m s : BitVec 8) : (formatE f p st m s).extractLsb' 4 4 = f := by
  apply BitVec.eq_of_getLsbD_eq
  intro i hi
  have h : 4 + i < 8 := by omega
  simp [formatE_getLsbD, hi, h]

theorem formatE_proto (f p : BitVec 4) (st : Status) (m s : BitVec 8) : (formatE f p st m s).extractLsb' 8 4 = p := by
  apply BitVec.eq_of_getLsbD_eq
  intro i hi
  have h1 : ¬8 + i < 4 := by omega
  have h : 8 + i < 12 := by omega
  simp [formatE_getLsbD, hi, h, h1]

theorem formatE_st (f p : BitVec 4) (st : Status) (m s : BitVec 8) :
    (formatE f p st m s).extractLsb' 12 1 = statusBit st := by
  apply BitVec.eq_of_getLsbD_eq
  intro i hi
  have h : i = 0 := by omega
  subst h
  rw [BitVec.getLsbD_extractLsb', formatE_getLsbD]
  simp

theorem formatE_master (f p : BitVec 4) (st : Status) (m s : BitVec 8) : (formatE f p st m s).extractLsb' 16 8 = m := by
  apply BitVec.eq_of_getLsbD_eq
  intro i hi
  have h0 : ¬16 + i < 4 := by omega
  have h1 : ¬16 + i < 8 := by omega
  have h2 : ¬16 + i < 12 := by omega
  have h3 : ¬16 + i < 13 := by omega
  have h : 16 + i < 24 := by omega
  simp [formatE_getLsbD, hi, h, h0, h1, h2, h3]

theorem formatE_slave (f p : BitVec 4) (st : Status) (m s : BitVec 8) : (formatE f p st m s).extractLsb' 24 8 = s := by
  apply BitVec.eq_of_getLsbD_eq
  intro i hi
  have h0 : ¬24 + i < 4 := by omega
  have h1 : ¬24 + i < 8 := by omega
  have h2 : ¬24 + i < 12 := by omega
  have h3 : ¬24 + i < 13 := by omega
  have h4 : ¬24 + i < 16 := by omega
  simp [formatE_getLsbD, hi, h0, h1, h2, h3, h4]

theorem formatT_op (op p : BitVec 4) (n : BitVec 16) : (formatT op p n).extractLsb' 0 4 = op := by
  apply BitVec.eq_of_getLsbD_eq
  intro i hi
  simp [formatT_getLsbD, hi]

theorem formatT_proto (op p : BitVec 4) (n : BitVec 16) : (formatT op p n).extractLsb' 8 4 = p := by
  apply BitVec.eq_of_getLsbD_eq
  intro i hi
  have h1 : ¬8 + i < 4 := by omega
  have h : 8 + i < 12 := by omega
  simp [formatT_getLsbD, hi, h, h1]

theorem formatT_repeat (op p : BitVec 4) (n : BitVec 16) : (formatT op p n).extractLsb' 16 16 = n := by
  apply BitVec.eq_of_getLsbD_eq
  intro i hi
  have h0 : ¬16 + i < 4 := by omega
  have h1 : ¬16 + i < 8 := by omega
  have h2 : ¬16 + i < 12 := by omega
  simp [formatT_getLsbD, hi, h0, h1, h2]

theorem formatC_op (op : BitVec 4) : (formatC op).extractLsb' 0 4 = op := by
  apply BitVec.eq_of_getLsbD_eq
  intro i hi
  simp [formatC_getLsbD, hi]

end Sys2Proof
end

