-- ==== Sys2Proof/Laws/State.lean ====
section
/-! SUPPORT. One lemma per field per update: what each named operation leaves in each field of State. -/

namespace Sys2Proof.Machine


/-! ### emit -/

@[simp] theorem emit_cw (e : Event) (s : State) : (emit e s).cw = s.cw := rfl
@[simp] theorem emit_encStat (e : Event) (s : State) : (emit e s).encStat = s.encStat := rfl
@[simp] theorem emit_seqState (e : Event) (s : State) : (emit e s).seqState = s.seqState := rfl
@[simp] theorem emit_exported (e : Event) (s : State) : (emit e s).exported = s.exported := rfl
@[simp] theorem emit_line (e : Event) (s : State) : (emit e s).line = s.line := rfl
@[simp] theorem emit_cancelPend (e : Event) (s : State) : (emit e s).cancelPend = s.cancelPend := rfl
@[simp] theorem emit_txStat (e : Event) (s : State) : (emit e s).txStat = s.txStat := rfl
@[simp] theorem emit_pos (e : Event) (s : State) : (emit e s).pos = s.pos := rfl
@[simp] theorem emit_shadow (e : Event) (s : State) : (emit e s).shadow = s.shadow := rfl
@[simp] theorem emit_wrcnt (e : Event) (s : State) : (emit e s).wrcnt = s.wrcnt := rfl
@[simp] theorem emit_tmr (e : Event) (s : State) : (emit e s).tmr = s.tmr := rfl
@[simp] theorem emit_slReq (e : Event) (s : State) : (emit e s).slReq = s.slReq := rfl
@[simp] theorem emit_slVal (e : Event) (s : State) : (emit e s).slVal = s.slVal := rfl
@[simp] theorem emit_held (e : Event) (s : State) : (emit e s).held = s.held := rfl
@[simp] theorem emit_regRdata (e : Event) (s : State) : (emit e s).regRdata = s.regRdata := rfl
@[simp] theorem emit_cancelI (e : Event) (s : State) : (emit e s).cancelI = s.cancelI := rfl
@[simp] theorem emit_tables (e : Event) (s : State) : (emit e s).tables = s.tables := rfl
@[simp] theorem emit_turns (e : Event) (s : State) : (emit e s).turns = s.turns := rfl
@[simp] theorem emit_hostProg (e : Event) (s : State) : (emit e s).hostProg = s.hostProg := rfl
@[simp] theorem emit_answers (e : Event) (s : State) : (emit e s).answers = s.answers := rfl
@[simp] theorem emit_trace (e : Event) (s : State) : (emit e s).trace = s.trace ++ [e] := rfl
@[simp] theorem emit_pin (e : Event) (s : State) : (emit e s).pin = s.pin := rfl

/-! ### hostRead -/

@[simp] theorem hostRead_cw (k : BitVec 4) (s : State) : (hostRead k s).cw = s.cw := rfl
@[simp] theorem hostRead_encStat (k : BitVec 4) (s : State) : (hostRead k s).encStat = s.encStat := rfl
@[simp] theorem hostRead_seqState (k : BitVec 4) (s : State) : (hostRead k s).seqState = s.seqState := rfl
@[simp] theorem hostRead_exported (k : BitVec 4) (s : State) : (hostRead k s).exported = s.exported := rfl
@[simp] theorem hostRead_line (k : BitVec 4) (s : State) : (hostRead k s).line = s.line := rfl
@[simp] theorem hostRead_cancelPend (k : BitVec 4) (s : State) : (hostRead k s).cancelPend = s.cancelPend := rfl
@[simp] theorem hostRead_txStat (k : BitVec 4) (s : State) : (hostRead k s).txStat = s.txStat := rfl
@[simp] theorem hostRead_pos (k : BitVec 4) (s : State) : (hostRead k s).pos = s.pos := rfl
@[simp] theorem hostRead_shadow (k : BitVec 4) (s : State) : (hostRead k s).shadow = s.shadow := rfl
@[simp] theorem hostRead_wrcnt (k : BitVec 4) (s : State) : (hostRead k s).wrcnt = s.wrcnt := rfl
@[simp] theorem hostRead_tmr (k : BitVec 4) (s : State) : (hostRead k s).tmr = s.tmr := rfl
@[simp] theorem hostRead_slReq (k : BitVec 4) (s : State) : (hostRead k s).slReq = s.slReq := rfl
@[simp] theorem hostRead_slVal (k : BitVec 4) (s : State) : (hostRead k s).slVal = s.slVal := rfl
@[simp] theorem hostRead_held (k : BitVec 4) (s : State) : (hostRead k s).held = s.held := rfl
@[simp] theorem hostRead_regRdata (k : BitVec 4) (s : State) : (hostRead k s).regRdata = readReg k s := rfl
@[simp] theorem hostRead_cancelI (k : BitVec 4) (s : State) : (hostRead k s).cancelI = s.cancelI := rfl
@[simp] theorem hostRead_tables (k : BitVec 4) (s : State) : (hostRead k s).tables = s.tables := rfl
@[simp] theorem hostRead_turns (k : BitVec 4) (s : State) : (hostRead k s).turns = s.turns := rfl
@[simp] theorem hostRead_hostProg (k : BitVec 4) (s : State) : (hostRead k s).hostProg = s.hostProg := rfl
@[simp] theorem hostRead_answers (k : BitVec 4) (s : State) : (hostRead k s).answers = s.answers := rfl
@[simp] theorem hostRead_trace (k : BitVec 4) (s : State) : (hostRead k s).trace = s.trace := rfl
@[simp] theorem hostRead_pin (k : BitVec 4) (s : State) : (hostRead k s).pin = s.pin := rfl

/-! ### raiseEnc -/

@[simp] theorem raiseEnc_cw (e : ErrCode) (b : Bool) (v : BitVec 8) (s : State) : (raiseEnc e b v s).cw = s.cw := rfl
@[simp] theorem raiseEnc_encStat (e : ErrCode) (b : Bool) (v : BitVec 8) (s : State) : (raiseEnc e b v s).encStat = { done := true, err := e, which := b, val := v } := rfl
@[simp] theorem raiseEnc_seqState (e : ErrCode) (b : Bool) (v : BitVec 8) (s : State) : (raiseEnc e b v s).seqState = s.seqState := rfl
@[simp] theorem raiseEnc_exported (e : ErrCode) (b : Bool) (v : BitVec 8) (s : State) : (raiseEnc e b v s).exported = s.exported := rfl
@[simp] theorem raiseEnc_line (e : ErrCode) (b : Bool) (v : BitVec 8) (s : State) : (raiseEnc e b v s).line = s.line := rfl
@[simp] theorem raiseEnc_cancelPend (e : ErrCode) (b : Bool) (v : BitVec 8) (s : State) : (raiseEnc e b v s).cancelPend = s.cancelPend := rfl
@[simp] theorem raiseEnc_txStat (e : ErrCode) (b : Bool) (v : BitVec 8) (s : State) : (raiseEnc e b v s).txStat = s.txStat := rfl
@[simp] theorem raiseEnc_pos (e : ErrCode) (b : Bool) (v : BitVec 8) (s : State) : (raiseEnc e b v s).pos = s.pos := rfl
@[simp] theorem raiseEnc_shadow (e : ErrCode) (b : Bool) (v : BitVec 8) (s : State) : (raiseEnc e b v s).shadow = s.shadow := rfl
@[simp] theorem raiseEnc_wrcnt (e : ErrCode) (b : Bool) (v : BitVec 8) (s : State) : (raiseEnc e b v s).wrcnt = s.wrcnt := rfl
@[simp] theorem raiseEnc_tmr (e : ErrCode) (b : Bool) (v : BitVec 8) (s : State) : (raiseEnc e b v s).tmr = s.tmr := rfl
@[simp] theorem raiseEnc_slReq (e : ErrCode) (b : Bool) (v : BitVec 8) (s : State) : (raiseEnc e b v s).slReq = s.slReq := rfl
@[simp] theorem raiseEnc_slVal (e : ErrCode) (b : Bool) (v : BitVec 8) (s : State) : (raiseEnc e b v s).slVal = s.slVal := rfl
@[simp] theorem raiseEnc_held (e : ErrCode) (b : Bool) (v : BitVec 8) (s : State) : (raiseEnc e b v s).held = s.held := rfl
@[simp] theorem raiseEnc_regRdata (e : ErrCode) (b : Bool) (v : BitVec 8) (s : State) : (raiseEnc e b v s).regRdata = s.regRdata := rfl
@[simp] theorem raiseEnc_cancelI (e : ErrCode) (b : Bool) (v : BitVec 8) (s : State) : (raiseEnc e b v s).cancelI = s.cancelI := rfl
@[simp] theorem raiseEnc_tables (e : ErrCode) (b : Bool) (v : BitVec 8) (s : State) : (raiseEnc e b v s).tables = s.tables := rfl
@[simp] theorem raiseEnc_turns (e : ErrCode) (b : Bool) (v : BitVec 8) (s : State) : (raiseEnc e b v s).turns = s.turns := rfl
@[simp] theorem raiseEnc_hostProg (e : ErrCode) (b : Bool) (v : BitVec 8) (s : State) : (raiseEnc e b v s).hostProg = s.hostProg := rfl
@[simp] theorem raiseEnc_answers (e : ErrCode) (b : Bool) (v : BitVec 8) (s : State) : (raiseEnc e b v s).answers = s.answers := rfl
@[simp] theorem raiseEnc_trace (e : ErrCode) (b : Bool) (v : BitVec 8) (s : State) : (raiseEnc e b v s).trace = s.trace := rfl
@[simp] theorem raiseEnc_pin (e : ErrCode) (b : Bool) (v : BitVec 8) (s : State) : (raiseEnc e b v s).pin = s.pin := rfl

/-! ### storeCodeword -/

@[simp] theorem storeCodeword_cw (w : List Symbol) (s : State) : (storeCodeword w s).cw = codewordOf w := rfl
@[simp] theorem storeCodeword_encStat (w : List Symbol) (s : State) : (storeCodeword w s).encStat = { done := true, err := .ok, which := false, val := 0 } := rfl
@[simp] theorem storeCodeword_seqState (w : List Symbol) (s : State) : (storeCodeword w s).seqState = s.seqState := rfl
@[simp] theorem storeCodeword_exported (w : List Symbol) (s : State) : (storeCodeword w s).exported = s.exported := rfl
@[simp] theorem storeCodeword_line (w : List Symbol) (s : State) : (storeCodeword w s).line = s.line := rfl
@[simp] theorem storeCodeword_cancelPend (w : List Symbol) (s : State) : (storeCodeword w s).cancelPend = s.cancelPend := rfl
@[simp] theorem storeCodeword_txStat (w : List Symbol) (s : State) : (storeCodeword w s).txStat = s.txStat := rfl
@[simp] theorem storeCodeword_pos (w : List Symbol) (s : State) : (storeCodeword w s).pos = s.pos := rfl
@[simp] theorem storeCodeword_shadow (w : List Symbol) (s : State) : (storeCodeword w s).shadow = s.shadow := rfl
@[simp] theorem storeCodeword_wrcnt (w : List Symbol) (s : State) : (storeCodeword w s).wrcnt = s.wrcnt := rfl
@[simp] theorem storeCodeword_tmr (w : List Symbol) (s : State) : (storeCodeword w s).tmr = s.tmr := rfl
@[simp] theorem storeCodeword_slReq (w : List Symbol) (s : State) : (storeCodeword w s).slReq = s.slReq := rfl
@[simp] theorem storeCodeword_slVal (w : List Symbol) (s : State) : (storeCodeword w s).slVal = s.slVal := rfl
@[simp] theorem storeCodeword_held (w : List Symbol) (s : State) : (storeCodeword w s).held = s.held := rfl
@[simp] theorem storeCodeword_regRdata (w : List Symbol) (s : State) : (storeCodeword w s).regRdata = s.regRdata := rfl
@[simp] theorem storeCodeword_cancelI (w : List Symbol) (s : State) : (storeCodeword w s).cancelI = s.cancelI := rfl
@[simp] theorem storeCodeword_tables (w : List Symbol) (s : State) : (storeCodeword w s).tables = s.tables := rfl
@[simp] theorem storeCodeword_turns (w : List Symbol) (s : State) : (storeCodeword w s).turns = s.turns := rfl
@[simp] theorem storeCodeword_hostProg (w : List Symbol) (s : State) : (storeCodeword w s).hostProg = s.hostProg := rfl
@[simp] theorem storeCodeword_answers (w : List Symbol) (s : State) : (storeCodeword w s).answers = s.answers := rfl
@[simp] theorem storeCodeword_trace (w : List Symbol) (s : State) : (storeCodeword w s).trace = s.trace := rfl
@[simp] theorem storeCodeword_pin (w : List Symbol) (s : State) : (storeCodeword w s).pin = s.pin := rfl

/-! ### rejectTx -/

@[simp] theorem rejectTx_cw (p : BitVec 4) (s : State) : (rejectTx p s).cw = s.cw := rfl
@[simp] theorem rejectTx_encStat (p : BitVec 4) (s : State) : (rejectTx p s).encStat = s.encStat := rfl
@[simp] theorem rejectTx_seqState (p : BitVec 4) (s : State) : (rejectTx p s).seqState = s.seqState := rfl
@[simp] theorem rejectTx_exported (p : BitVec 4) (s : State) : (rejectTx p s).exported = s.exported := rfl
@[simp] theorem rejectTx_line (p : BitVec 4) (s : State) : (rejectTx p s).line = s.line := rfl
@[simp] theorem rejectTx_cancelPend (p : BitVec 4) (s : State) : (rejectTx p s).cancelPend = s.cancelPend := rfl
@[simp] theorem rejectTx_txStat (p : BitVec 4) (s : State) : (rejectTx p s).txStat = { done := true, err := .unsupportedProtocol, val := p.zeroExtend 8 } := rfl
@[simp] theorem rejectTx_pos (p : BitVec 4) (s : State) : (rejectTx p s).pos = s.pos := rfl
@[simp] theorem rejectTx_shadow (p : BitVec 4) (s : State) : (rejectTx p s).shadow = s.shadow := rfl
@[simp] theorem rejectTx_wrcnt (p : BitVec 4) (s : State) : (rejectTx p s).wrcnt = s.wrcnt := rfl
@[simp] theorem rejectTx_tmr (p : BitVec 4) (s : State) : (rejectTx p s).tmr = s.tmr := rfl
@[simp] theorem rejectTx_slReq (p : BitVec 4) (s : State) : (rejectTx p s).slReq = s.slReq := rfl
@[simp] theorem rejectTx_slVal (p : BitVec 4) (s : State) : (rejectTx p s).slVal = s.slVal := rfl
@[simp] theorem rejectTx_held (p : BitVec 4) (s : State) : (rejectTx p s).held = s.held := rfl
@[simp] theorem rejectTx_regRdata (p : BitVec 4) (s : State) : (rejectTx p s).regRdata = s.regRdata := rfl
@[simp] theorem rejectTx_cancelI (p : BitVec 4) (s : State) : (rejectTx p s).cancelI = s.cancelI := rfl
@[simp] theorem rejectTx_tables (p : BitVec 4) (s : State) : (rejectTx p s).tables = s.tables := rfl
@[simp] theorem rejectTx_turns (p : BitVec 4) (s : State) : (rejectTx p s).turns = s.turns := rfl
@[simp] theorem rejectTx_hostProg (p : BitVec 4) (s : State) : (rejectTx p s).hostProg = s.hostProg := rfl
@[simp] theorem rejectTx_answers (p : BitVec 4) (s : State) : (rejectTx p s).answers = s.answers := rfl
@[simp] theorem rejectTx_trace (p : BitVec 4) (s : State) : (rejectTx p s).trace = s.trace := rfl
@[simp] theorem rejectTx_pin (p : BitVec 4) (s : State) : (rejectTx p s).pin = s.pin := rfl

/-! ### acceptTx -/

@[simp] theorem acceptTx_cw (p : BitVec 4) (n : BitVec 16) (s : State) : (acceptTx p n s).cw = s.cw := rfl
@[simp] theorem acceptTx_encStat (p : BitVec 4) (n : BitVec 16) (s : State) : (acceptTx p n s).encStat = s.encStat := rfl
@[simp] theorem acceptTx_seqState (p : BitVec 4) (n : BitVec 16) (s : State) : (acceptTx p n s).seqState = .exporting := rfl
@[simp] theorem acceptTx_exported (p : BitVec 4) (n : BitVec 16) (s : State) : (acceptTx p n s).exported = s.exported := rfl
@[simp] theorem acceptTx_line (p : BitVec 4) (n : BitVec 16) (s : State) : (acceptTx p n s).line = s.line := rfl
@[simp] theorem acceptTx_cancelPend (p : BitVec 4) (n : BitVec 16) (s : State) : (acceptTx p n s).cancelPend = false := rfl
@[simp] theorem acceptTx_txStat (p : BitVec 4) (n : BitVec 16) (s : State) : (acceptTx p n s).txStat = { done := false, err := .ok, val := 0 } := rfl
@[simp] theorem acceptTx_pos (p : BitVec 4) (n : BitVec 16) (s : State) : (acceptTx p n s).pos = s.pos := rfl
@[simp] theorem acceptTx_shadow (p : BitVec 4) (n : BitVec 16) (s : State) : (acceptTx p n s).shadow = { cw := s.cw, proto := p, rep := n } := rfl
@[simp] theorem acceptTx_wrcnt (p : BitVec 4) (n : BitVec 16) (s : State) : (acceptTx p n s).wrcnt = 0 := rfl
@[simp] theorem acceptTx_tmr (p : BitVec 4) (n : BitVec 16) (s : State) : (acceptTx p n s).tmr = s.tmr := rfl
@[simp] theorem acceptTx_slReq (p : BitVec 4) (n : BitVec 16) (s : State) : (acceptTx p n s).slReq = s.slReq := rfl
@[simp] theorem acceptTx_slVal (p : BitVec 4) (n : BitVec 16) (s : State) : (acceptTx p n s).slVal = s.slVal := rfl
@[simp] theorem acceptTx_held (p : BitVec 4) (n : BitVec 16) (s : State) : (acceptTx p n s).held = s.held := rfl
@[simp] theorem acceptTx_regRdata (p : BitVec 4) (n : BitVec 16) (s : State) : (acceptTx p n s).regRdata = s.regRdata := rfl
@[simp] theorem acceptTx_cancelI (p : BitVec 4) (n : BitVec 16) (s : State) : (acceptTx p n s).cancelI = s.cancelI := rfl
@[simp] theorem acceptTx_tables (p : BitVec 4) (n : BitVec 16) (s : State) : (acceptTx p n s).tables = s.tables := rfl
@[simp] theorem acceptTx_turns (p : BitVec 4) (n : BitVec 16) (s : State) : (acceptTx p n s).turns = s.turns := rfl
@[simp] theorem acceptTx_hostProg (p : BitVec 4) (n : BitVec 16) (s : State) : (acceptTx p n s).hostProg = s.hostProg := rfl
@[simp] theorem acceptTx_answers (p : BitVec 4) (n : BitVec 16) (s : State) : (acceptTx p n s).answers = s.answers := rfl
@[simp] theorem acceptTx_trace (p : BitVec 4) (n : BitVec 16) (s : State) : (acceptTx p n s).trace = [] := rfl
@[simp] theorem acceptTx_pin (p : BitVec 4) (n : BitVec 16) (s : State) : (acceptTx p n s).pin = s.pin := rfl

/-! ### activateLine -/

@[simp] theorem activateLine_cw (s : State) : (activateLine s).cw = s.cw := rfl
@[simp] theorem activateLine_encStat (s : State) : (activateLine s).encStat = s.encStat := rfl
@[simp] theorem activateLine_seqState (s : State) : (activateLine s).seqState = s.seqState := rfl
@[simp] theorem activateLine_exported (s : State) : (activateLine s).exported = true := rfl
@[simp] theorem activateLine_line (s : State) : (activateLine s).line = s.line := rfl
@[simp] theorem activateLine_cancelPend (s : State) : (activateLine s).cancelPend = s.cancelPend := rfl
@[simp] theorem activateLine_txStat (s : State) : (activateLine s).txStat = s.txStat := rfl
@[simp] theorem activateLine_pos (s : State) : (activateLine s).pos = s.pos := rfl
@[simp] theorem activateLine_shadow (s : State) : (activateLine s).shadow = s.shadow := rfl
@[simp] theorem activateLine_wrcnt (s : State) : (activateLine s).wrcnt = s.wrcnt := rfl
@[simp] theorem activateLine_tmr (s : State) : (activateLine s).tmr = s.tmr := rfl
@[simp] theorem activateLine_slReq (s : State) : (activateLine s).slReq = s.slReq := rfl
@[simp] theorem activateLine_slVal (s : State) : (activateLine s).slVal = s.slVal := rfl
@[simp] theorem activateLine_held (s : State) : (activateLine s).held = s.held := rfl
@[simp] theorem activateLine_regRdata (s : State) : (activateLine s).regRdata = s.regRdata := rfl
@[simp] theorem activateLine_cancelI (s : State) : (activateLine s).cancelI = s.cancelI := rfl
@[simp] theorem activateLine_tables (s : State) : (activateLine s).tables = s.tables := rfl
@[simp] theorem activateLine_turns (s : State) : (activateLine s).turns = s.turns := rfl
@[simp] theorem activateLine_hostProg (s : State) : (activateLine s).hostProg = s.hostProg := rfl
@[simp] theorem activateLine_answers (s : State) : (activateLine s).answers = s.answers := rfl
@[simp] theorem activateLine_trace (s : State) : (activateLine s).trace = s.trace := rfl
@[simp] theorem activateLine_pin (s : State) : (activateLine s).pin = if s.exported = true then s.pin else none := rfl

/-! ### holdWrite -/

@[simp] theorem holdWrite_cw (i : Instr) (s : State) : (holdWrite i s).cw = s.cw := rfl
@[simp] theorem holdWrite_encStat (i : Instr) (s : State) : (holdWrite i s).encStat = s.encStat := rfl
@[simp] theorem holdWrite_seqState (i : Instr) (s : State) : (holdWrite i s).seqState = s.seqState := rfl
@[simp] theorem holdWrite_exported (i : Instr) (s : State) : (holdWrite i s).exported = s.exported := rfl
@[simp] theorem holdWrite_line (i : Instr) (s : State) : (holdWrite i s).line = s.line := rfl
@[simp] theorem holdWrite_cancelPend (i : Instr) (s : State) : (holdWrite i s).cancelPend = s.cancelPend := rfl
@[simp] theorem holdWrite_txStat (i : Instr) (s : State) : (holdWrite i s).txStat = s.txStat := rfl
@[simp] theorem holdWrite_pos (i : Instr) (s : State) : (holdWrite i s).pos = s.pos := rfl
@[simp] theorem holdWrite_shadow (i : Instr) (s : State) : (holdWrite i s).shadow = s.shadow := rfl
@[simp] theorem holdWrite_wrcnt (i : Instr) (s : State) : (holdWrite i s).wrcnt = s.wrcnt := rfl
@[simp] theorem holdWrite_tmr (i : Instr) (s : State) : (holdWrite i s).tmr = s.tmr := rfl
@[simp] theorem holdWrite_slReq (i : Instr) (s : State) : (holdWrite i s).slReq = s.slReq := rfl
@[simp] theorem holdWrite_slVal (i : Instr) (s : State) : (holdWrite i s).slVal = s.slVal := rfl
@[simp] theorem holdWrite_held (i : Instr) (s : State) : (holdWrite i s).held = some i := rfl
@[simp] theorem holdWrite_regRdata (i : Instr) (s : State) : (holdWrite i s).regRdata = s.regRdata := rfl
@[simp] theorem holdWrite_cancelI (i : Instr) (s : State) : (holdWrite i s).cancelI = s.cancelI := rfl
@[simp] theorem holdWrite_tables (i : Instr) (s : State) : (holdWrite i s).tables = s.tables := rfl
@[simp] theorem holdWrite_turns (i : Instr) (s : State) : (holdWrite i s).turns = s.turns := rfl
@[simp] theorem holdWrite_hostProg (i : Instr) (s : State) : (holdWrite i s).hostProg = s.hostProg := rfl
@[simp] theorem holdWrite_answers (i : Instr) (s : State) : (holdWrite i s).answers = s.answers := rfl
@[simp] theorem holdWrite_trace (i : Instr) (s : State) : (holdWrite i s).trace = s.trace := rfl
@[simp] theorem holdWrite_pin (i : Instr) (s : State) : (holdWrite i s).pin = s.pin := rfl

/-! ### complete -/

@[simp] theorem complete_cw (e : ErrCode) (s : State) : (complete e s).cw = s.cw := rfl
@[simp] theorem complete_encStat (e : ErrCode) (s : State) : (complete e s).encStat = s.encStat := rfl
@[simp] theorem complete_seqState (e : ErrCode) (s : State) : (complete e s).seqState = .idle := rfl
@[simp] theorem complete_exported (e : ErrCode) (s : State) : (complete e s).exported = s.exported := rfl
@[simp] theorem complete_line (e : ErrCode) (s : State) : (complete e s).line = s.line := rfl
@[simp] theorem complete_cancelPend (e : ErrCode) (s : State) : (complete e s).cancelPend = false := rfl
@[simp] theorem complete_txStat (e : ErrCode) (s : State) : (complete e s).txStat = { done := true, err := e, val := 0 } := rfl
@[simp] theorem complete_pos (e : ErrCode) (s : State) : (complete e s).pos = s.pos := rfl
@[simp] theorem complete_shadow (e : ErrCode) (s : State) : (complete e s).shadow = s.shadow := rfl
@[simp] theorem complete_wrcnt (e : ErrCode) (s : State) : (complete e s).wrcnt = s.wrcnt := rfl
@[simp] theorem complete_tmr (e : ErrCode) (s : State) : (complete e s).tmr = s.tmr := rfl
@[simp] theorem complete_slReq (e : ErrCode) (s : State) : (complete e s).slReq = false := rfl
@[simp] theorem complete_slVal (e : ErrCode) (s : State) : (complete e s).slVal = s.slVal := rfl
@[simp] theorem complete_held (e : ErrCode) (s : State) : (complete e s).held = s.held := rfl
@[simp] theorem complete_regRdata (e : ErrCode) (s : State) : (complete e s).regRdata = s.regRdata := rfl
@[simp] theorem complete_cancelI (e : ErrCode) (s : State) : (complete e s).cancelI = s.cancelI := rfl
@[simp] theorem complete_tables (e : ErrCode) (s : State) : (complete e s).tables = s.tables := rfl
@[simp] theorem complete_turns (e : ErrCode) (s : State) : (complete e s).turns = s.turns := rfl
@[simp] theorem complete_hostProg (e : ErrCode) (s : State) : (complete e s).hostProg = s.hostProg := rfl
@[simp] theorem complete_answers (e : ErrCode) (s : State) : (complete e s).answers = s.answers := rfl
@[simp] theorem complete_trace (e : ErrCode) (s : State) : (complete e s).trace = s.trace := rfl
@[simp] theorem complete_pin (e : ErrCode) (s : State) : (complete e s).pin = s.pin := rfl

/-! ### issueRequest -/

@[simp] theorem issueRequest_cw (s : State) : (issueRequest s).cw = s.cw := rfl
@[simp] theorem issueRequest_encStat (s : State) : (issueRequest s).encStat = s.encStat := rfl
@[simp] theorem issueRequest_seqState (s : State) : (issueRequest s).seqState = s.seqState := rfl
@[simp] theorem issueRequest_exported (s : State) : (issueRequest s).exported = s.exported := rfl
@[simp] theorem issueRequest_line (s : State) : (issueRequest s).line = s.line := rfl
@[simp] theorem issueRequest_cancelPend (s : State) : (issueRequest s).cancelPend = s.cancelPend := rfl
@[simp] theorem issueRequest_txStat (s : State) : (issueRequest s).txStat = s.txStat := rfl
@[simp] theorem issueRequest_pos (s : State) : (issueRequest s).pos = s.pos := rfl
@[simp] theorem issueRequest_shadow (s : State) : (issueRequest s).shadow = s.shadow := rfl
@[simp] theorem issueRequest_wrcnt (s : State) : (issueRequest s).wrcnt = s.wrcnt + 1 := rfl
@[simp] theorem issueRequest_tmr (s : State) : (issueRequest s).tmr = s.tmr := rfl
@[simp] theorem issueRequest_slReq (s : State) : (issueRequest s).slReq = true := rfl
@[simp] theorem issueRequest_slVal (s : State) : (issueRequest s).slVal = levelOf s.pos.ph := rfl
@[simp] theorem issueRequest_held (s : State) : (issueRequest s).held = s.held := rfl
@[simp] theorem issueRequest_regRdata (s : State) : (issueRequest s).regRdata = s.regRdata := rfl
@[simp] theorem issueRequest_cancelI (s : State) : (issueRequest s).cancelI = s.cancelI := rfl
@[simp] theorem issueRequest_tables (s : State) : (issueRequest s).tables = s.tables := rfl
@[simp] theorem issueRequest_turns (s : State) : (issueRequest s).turns = s.turns := rfl
@[simp] theorem issueRequest_hostProg (s : State) : (issueRequest s).hostProg = s.hostProg := rfl
@[simp] theorem issueRequest_answers (s : State) : (issueRequest s).answers = s.answers := rfl
@[simp] theorem issueRequest_trace (s : State) : (issueRequest s).trace = s.trace := rfl
@[simp] theorem issueRequest_pin (s : State) : (issueRequest s).pin = s.pin := rfl

/-! ### answerOk -/

@[simp] theorem answerOk_cw (n : Nat) (s : State) : (answerOk n s).cw = s.cw := rfl
@[simp] theorem answerOk_encStat (n : Nat) (s : State) : (answerOk n s).encStat = s.encStat := rfl
@[simp] theorem answerOk_seqState (n : Nat) (s : State) : (answerOk n s).seqState = s.seqState := rfl
@[simp] theorem answerOk_exported (n : Nat) (s : State) : (answerOk n s).exported = s.exported := rfl
@[simp] theorem answerOk_line (n : Nat) (s : State) : (answerOk n s).line = s.slVal := rfl
@[simp] theorem answerOk_cancelPend (n : Nat) (s : State) : (answerOk n s).cancelPend = s.cancelPend := rfl
@[simp] theorem answerOk_txStat (n : Nat) (s : State) : (answerOk n s).txStat = s.txStat := rfl
@[simp] theorem answerOk_pos (n : Nat) (s : State) : (answerOk n s).pos = { s.pos with sub := .wait } := rfl
@[simp] theorem answerOk_shadow (n : Nat) (s : State) : (answerOk n s).shadow = s.shadow := rfl
@[simp] theorem answerOk_wrcnt (n : Nat) (s : State) : (answerOk n s).wrcnt = s.wrcnt := rfl
@[simp] theorem answerOk_tmr (n : Nat) (s : State) : (answerOk n s).tmr = n := rfl
@[simp] theorem answerOk_slReq (n : Nat) (s : State) : (answerOk n s).slReq = false := rfl
@[simp] theorem answerOk_slVal (n : Nat) (s : State) : (answerOk n s).slVal = s.slVal := rfl
@[simp] theorem answerOk_held (n : Nat) (s : State) : (answerOk n s).held = s.held := rfl
@[simp] theorem answerOk_regRdata (n : Nat) (s : State) : (answerOk n s).regRdata = s.regRdata := rfl
@[simp] theorem answerOk_cancelI (n : Nat) (s : State) : (answerOk n s).cancelI = s.cancelI := rfl
@[simp] theorem answerOk_tables (n : Nat) (s : State) : (answerOk n s).tables = s.tables := rfl
@[simp] theorem answerOk_turns (n : Nat) (s : State) : (answerOk n s).turns = s.turns := rfl
@[simp] theorem answerOk_hostProg (n : Nat) (s : State) : (answerOk n s).hostProg = s.hostProg := rfl
@[simp] theorem answerOk_answers (n : Nat) (s : State) : (answerOk n s).answers = s.answers := rfl
@[simp] theorem answerOk_trace (n : Nat) (s : State) : (answerOk n s).trace = s.trace ++ [.set s.slVal .ok] := rfl
@[simp] theorem answerOk_pin (n : Nat) (s : State) : (answerOk n s).pin = some s.slVal := rfl

/-! ### answerError -/

@[simp] theorem answerError_cw (s : State) : (answerError s).cw = s.cw := rfl
@[simp] theorem answerError_encStat (s : State) : (answerError s).encStat = s.encStat := rfl
@[simp] theorem answerError_seqState (s : State) : (answerError s).seqState = .idle := rfl
@[simp] theorem answerError_exported (s : State) : (answerError s).exported = s.exported := rfl
@[simp] theorem answerError_line (s : State) : (answerError s).line = s.line := rfl
@[simp] theorem answerError_cancelPend (s : State) : (answerError s).cancelPend = false := rfl
@[simp] theorem answerError_txStat (s : State) : (answerError s).txStat = { done := true, err := .lineWriteFailed, val := 0 } := rfl
@[simp] theorem answerError_pos (s : State) : (answerError s).pos = s.pos := rfl
@[simp] theorem answerError_shadow (s : State) : (answerError s).shadow = s.shadow := rfl
@[simp] theorem answerError_wrcnt (s : State) : (answerError s).wrcnt = s.wrcnt := rfl
@[simp] theorem answerError_tmr (s : State) : (answerError s).tmr = s.tmr := rfl
@[simp] theorem answerError_slReq (s : State) : (answerError s).slReq = false := rfl
@[simp] theorem answerError_slVal (s : State) : (answerError s).slVal = s.slVal := rfl
@[simp] theorem answerError_held (s : State) : (answerError s).held = s.held := rfl
@[simp] theorem answerError_regRdata (s : State) : (answerError s).regRdata = s.regRdata := rfl
@[simp] theorem answerError_cancelI (s : State) : (answerError s).cancelI = s.cancelI := rfl
@[simp] theorem answerError_tables (s : State) : (answerError s).tables = s.tables := rfl
@[simp] theorem answerError_turns (s : State) : (answerError s).turns = s.turns := rfl
@[simp] theorem answerError_hostProg (s : State) : (answerError s).hostProg = s.hostProg := rfl
@[simp] theorem answerError_answers (s : State) : (answerError s).answers = s.answers := rfl
@[simp] theorem answerError_trace (s : State) : (answerError s).trace = s.trace ++ [.set s.slVal .error] := rfl
@[simp] theorem answerError_pin (s : State) : (answerError s).pin = none := rfl

/-! ### resetHardware -/

@[simp] theorem resetHardware_cw (s : State) : (resetHardware s).cw = State.reset.cw := rfl
@[simp] theorem resetHardware_encStat (s : State) : (resetHardware s).encStat = State.reset.encStat := rfl
@[simp] theorem resetHardware_seqState (s : State) : (resetHardware s).seqState = State.reset.seqState := rfl
@[simp] theorem resetHardware_exported (s : State) : (resetHardware s).exported = State.reset.exported := rfl
@[simp] theorem resetHardware_line (s : State) : (resetHardware s).line = State.reset.line := rfl
@[simp] theorem resetHardware_cancelPend (s : State) : (resetHardware s).cancelPend = State.reset.cancelPend := rfl
@[simp] theorem resetHardware_txStat (s : State) : (resetHardware s).txStat = State.reset.txStat := rfl
@[simp] theorem resetHardware_pos (s : State) : (resetHardware s).pos = State.reset.pos := rfl
@[simp] theorem resetHardware_shadow (s : State) : (resetHardware s).shadow = State.reset.shadow := rfl
@[simp] theorem resetHardware_wrcnt (s : State) : (resetHardware s).wrcnt = State.reset.wrcnt := rfl
@[simp] theorem resetHardware_tmr (s : State) : (resetHardware s).tmr = State.reset.tmr := rfl
@[simp] theorem resetHardware_slReq (s : State) : (resetHardware s).slReq = State.reset.slReq := rfl
@[simp] theorem resetHardware_slVal (s : State) : (resetHardware s).slVal = State.reset.slVal := rfl
@[simp] theorem resetHardware_held (s : State) : (resetHardware s).held = State.reset.held := rfl
@[simp] theorem resetHardware_regRdata (s : State) : (resetHardware s).regRdata = State.reset.regRdata := rfl
@[simp] theorem resetHardware_cancelI (s : State) : (resetHardware s).cancelI = s.cancelI := rfl
@[simp] theorem resetHardware_tables (s : State) : (resetHardware s).tables = s.tables := rfl
@[simp] theorem resetHardware_turns (s : State) : (resetHardware s).turns = s.turns := rfl
@[simp] theorem resetHardware_hostProg (s : State) : (resetHardware s).hostProg = s.hostProg := rfl
@[simp] theorem resetHardware_answers (s : State) : (resetHardware s).answers = s.answers := rfl
@[simp] theorem resetHardware_trace (s : State) : (resetHardware s).trace = State.reset.trace := rfl
@[simp] theorem resetHardware_pin (s : State) : (resetHardware s).pin = s.pin := rfl

/-! ### placeCommand -/

@[simp] theorem placeCommand_cw (w : Word) (s : State) : (placeCommand w s).cw = s.cw := rfl
@[simp] theorem placeCommand_encStat (w : Word) (s : State) : (placeCommand w s).encStat = s.encStat := rfl
@[simp] theorem placeCommand_seqState (w : Word) (s : State) : (placeCommand w s).seqState = s.seqState := rfl
@[simp] theorem placeCommand_exported (w : Word) (s : State) : (placeCommand w s).exported = s.exported := rfl
@[simp] theorem placeCommand_line (w : Word) (s : State) : (placeCommand w s).line = s.line := rfl
@[simp] theorem placeCommand_cancelPend (w : Word) (s : State) : (placeCommand w s).cancelPend = s.cancelPend := rfl
@[simp] theorem placeCommand_txStat (w : Word) (s : State) : (placeCommand w s).txStat = s.txStat := rfl
@[simp] theorem placeCommand_pos (w : Word) (s : State) : (placeCommand w s).pos = s.pos := rfl
@[simp] theorem placeCommand_shadow (w : Word) (s : State) : (placeCommand w s).shadow = s.shadow := rfl
@[simp] theorem placeCommand_wrcnt (w : Word) (s : State) : (placeCommand w s).wrcnt = s.wrcnt := rfl
@[simp] theorem placeCommand_tmr (w : Word) (s : State) : (placeCommand w s).tmr = s.tmr := rfl
@[simp] theorem placeCommand_slReq (w : Word) (s : State) : (placeCommand w s).slReq = s.slReq := rfl
@[simp] theorem placeCommand_slVal (w : Word) (s : State) : (placeCommand w s).slVal = s.slVal := rfl
@[simp] theorem placeCommand_held (w : Word) (s : State) : (placeCommand w s).held = none := rfl
@[simp] theorem placeCommand_regRdata (w : Word) (s : State) : (placeCommand w s).regRdata = s.regRdata := rfl
@[simp] theorem placeCommand_cancelI (w : Word) (s : State) : (placeCommand w s).cancelI = s.cancelI := rfl
@[simp] theorem placeCommand_tables (w : Word) (s : State) : (placeCommand w s).tables = s.tables := rfl
@[simp] theorem placeCommand_turns (w : Word) (s : State) : (placeCommand w s).turns = .host :: s.turns := rfl
@[simp] theorem placeCommand_hostProg (w : Word) (s : State) : (placeCommand w s).hostProg = .write 0 w :: s.hostProg := rfl
@[simp] theorem placeCommand_answers (w : Word) (s : State) : (placeCommand w s).answers = s.answers := rfl
@[simp] theorem placeCommand_trace (w : Word) (s : State) : (placeCommand w s).trace = s.trace := rfl
@[simp] theorem placeCommand_pin (w : Word) (s : State) : (placeCommand w s).pin = s.pin := rfl

/-! ### requestCancel -/

@[simp] theorem requestCancel_cw (s : State) : (requestCancel s).cw = s.cw := by
  unfold requestCancel; repeat' split
  all_goals rfl
@[simp] theorem requestCancel_encStat (s : State) : (requestCancel s).encStat = s.encStat := by
  unfold requestCancel; repeat' split
  all_goals rfl
@[simp] theorem requestCancel_seqState (s : State) : (requestCancel s).seqState = s.seqState := by
  unfold requestCancel; repeat' split
  all_goals rfl
@[simp] theorem requestCancel_exported (s : State) : (requestCancel s).exported = s.exported := by
  unfold requestCancel; repeat' split
  all_goals rfl
@[simp] theorem requestCancel_line (s : State) : (requestCancel s).line = s.line := by
  unfold requestCancel; repeat' split
  all_goals rfl
@[simp] theorem requestCancel_txStat (s : State) : (requestCancel s).txStat = s.txStat := by
  unfold requestCancel; repeat' split
  all_goals rfl
@[simp] theorem requestCancel_pos (s : State) : (requestCancel s).pos = s.pos := by
  unfold requestCancel; repeat' split
  all_goals rfl
@[simp] theorem requestCancel_shadow (s : State) : (requestCancel s).shadow = s.shadow := by
  unfold requestCancel; repeat' split
  all_goals rfl
@[simp] theorem requestCancel_wrcnt (s : State) : (requestCancel s).wrcnt = s.wrcnt := by
  unfold requestCancel; repeat' split
  all_goals rfl
@[simp] theorem requestCancel_tmr (s : State) : (requestCancel s).tmr = s.tmr := by
  unfold requestCancel; repeat' split
  all_goals rfl
@[simp] theorem requestCancel_slReq (s : State) : (requestCancel s).slReq = s.slReq := by
  unfold requestCancel; repeat' split
  all_goals rfl
@[simp] theorem requestCancel_slVal (s : State) : (requestCancel s).slVal = s.slVal := by
  unfold requestCancel; repeat' split
  all_goals rfl
@[simp] theorem requestCancel_held (s : State) : (requestCancel s).held = s.held := by
  unfold requestCancel; repeat' split
  all_goals rfl
@[simp] theorem requestCancel_regRdata (s : State) : (requestCancel s).regRdata = s.regRdata := by
  unfold requestCancel; repeat' split
  all_goals rfl
@[simp] theorem requestCancel_cancelI (s : State) : (requestCancel s).cancelI = s.cancelI := by
  unfold requestCancel; repeat' split
  all_goals rfl
@[simp] theorem requestCancel_tables (s : State) : (requestCancel s).tables = s.tables := by
  unfold requestCancel; repeat' split
  all_goals rfl
@[simp] theorem requestCancel_turns (s : State) : (requestCancel s).turns = s.turns := by
  unfold requestCancel; repeat' split
  all_goals rfl
@[simp] theorem requestCancel_hostProg (s : State) : (requestCancel s).hostProg = s.hostProg := by
  unfold requestCancel; repeat' split
  all_goals rfl
@[simp] theorem requestCancel_answers (s : State) : (requestCancel s).answers = s.answers := by
  unfold requestCancel; repeat' split
  all_goals rfl
@[simp] theorem requestCancel_trace (s : State) : (requestCancel s).trace = s.trace := by
  unfold requestCancel; repeat' split
  all_goals rfl
@[simp] theorem requestCancel_pin (s : State) : (requestCancel s).pin = s.pin := by
  unfold requestCancel; repeat' split
  all_goals rfl

/-! ### sampleCancel -/

@[simp] theorem sampleCancel_cw (s : State) : (sampleCancel s).cw = s.cw := by
  unfold sampleCancel; split <;> simp
@[simp] theorem sampleCancel_encStat (s : State) : (sampleCancel s).encStat = s.encStat := by
  unfold sampleCancel; split <;> simp
@[simp] theorem sampleCancel_seqState (s : State) : (sampleCancel s).seqState = s.seqState := by
  unfold sampleCancel; split <;> simp
@[simp] theorem sampleCancel_exported (s : State) : (sampleCancel s).exported = s.exported := by
  unfold sampleCancel; split <;> simp
@[simp] theorem sampleCancel_line (s : State) : (sampleCancel s).line = s.line := by
  unfold sampleCancel; split <;> simp
@[simp] theorem sampleCancel_txStat (s : State) : (sampleCancel s).txStat = s.txStat := by
  unfold sampleCancel; split <;> simp
@[simp] theorem sampleCancel_pos (s : State) : (sampleCancel s).pos = s.pos := by
  unfold sampleCancel; split <;> simp
@[simp] theorem sampleCancel_shadow (s : State) : (sampleCancel s).shadow = s.shadow := by
  unfold sampleCancel; split <;> simp
@[simp] theorem sampleCancel_wrcnt (s : State) : (sampleCancel s).wrcnt = s.wrcnt := by
  unfold sampleCancel; split <;> simp
@[simp] theorem sampleCancel_tmr (s : State) : (sampleCancel s).tmr = s.tmr := by
  unfold sampleCancel; split <;> simp
@[simp] theorem sampleCancel_slReq (s : State) : (sampleCancel s).slReq = s.slReq := by
  unfold sampleCancel; split <;> simp
@[simp] theorem sampleCancel_slVal (s : State) : (sampleCancel s).slVal = s.slVal := by
  unfold sampleCancel; split <;> simp
@[simp] theorem sampleCancel_held (s : State) : (sampleCancel s).held = s.held := by
  unfold sampleCancel; split <;> simp
@[simp] theorem sampleCancel_regRdata (s : State) : (sampleCancel s).regRdata = s.regRdata := by
  unfold sampleCancel; split <;> simp
@[simp] theorem sampleCancel_cancelI (s : State) : (sampleCancel s).cancelI = s.cancelI := by
  unfold sampleCancel; split <;> simp
@[simp] theorem sampleCancel_tables (s : State) : (sampleCancel s).tables = s.tables := by
  unfold sampleCancel; split <;> simp
@[simp] theorem sampleCancel_turns (s : State) : (sampleCancel s).turns = s.turns := by
  unfold sampleCancel; split <;> simp
@[simp] theorem sampleCancel_hostProg (s : State) : (sampleCancel s).hostProg = s.hostProg := by
  unfold sampleCancel; split <;> simp
@[simp] theorem sampleCancel_answers (s : State) : (sampleCancel s).answers = s.answers := by
  unfold sampleCancel; split <;> simp
@[simp] theorem sampleCancel_trace (s : State) : (sampleCancel s).trace = s.trace := by
  unfold sampleCancel; split <;> simp
@[simp] theorem sampleCancel_pin (s : State) : (sampleCancel s).pin = s.pin := by
  unfold sampleCancel; split <;> simp

/-! ### clockTick -/

@[simp] theorem clockTick_cw (s : State) : (clockTick s).cw = s.cw := by
  unfold clockTick; repeat' split
  all_goals rfl
@[simp] theorem clockTick_encStat (s : State) : (clockTick s).encStat = s.encStat := by
  unfold clockTick; repeat' split
  all_goals rfl
@[simp] theorem clockTick_seqState (s : State) : (clockTick s).seqState = s.seqState := by
  unfold clockTick; repeat' split
  all_goals rfl
@[simp] theorem clockTick_exported (s : State) : (clockTick s).exported = s.exported := by
  unfold clockTick; repeat' split
  all_goals rfl
@[simp] theorem clockTick_line (s : State) : (clockTick s).line = s.line := by
  unfold clockTick; repeat' split
  all_goals rfl
@[simp] theorem clockTick_cancelPend (s : State) : (clockTick s).cancelPend = s.cancelPend := by
  unfold clockTick; repeat' split
  all_goals rfl
@[simp] theorem clockTick_txStat (s : State) : (clockTick s).txStat = s.txStat := by
  unfold clockTick; repeat' split
  all_goals rfl
@[simp] theorem clockTick_pos (s : State) : (clockTick s).pos = s.pos := by
  unfold clockTick; repeat' split
  all_goals rfl
@[simp] theorem clockTick_shadow (s : State) : (clockTick s).shadow = s.shadow := by
  unfold clockTick; repeat' split
  all_goals rfl
@[simp] theorem clockTick_wrcnt (s : State) : (clockTick s).wrcnt = s.wrcnt := by
  unfold clockTick; repeat' split
  all_goals rfl
@[simp] theorem clockTick_slReq (s : State) : (clockTick s).slReq = s.slReq := by
  unfold clockTick; repeat' split
  all_goals rfl
@[simp] theorem clockTick_slVal (s : State) : (clockTick s).slVal = s.slVal := by
  unfold clockTick; repeat' split
  all_goals rfl
@[simp] theorem clockTick_held (s : State) : (clockTick s).held = s.held := by
  unfold clockTick; repeat' split
  all_goals rfl
@[simp] theorem clockTick_regRdata (s : State) : (clockTick s).regRdata = s.regRdata := by
  unfold clockTick; repeat' split
  all_goals rfl
@[simp] theorem clockTick_cancelI (s : State) : (clockTick s).cancelI = s.cancelI := by
  unfold clockTick; repeat' split
  all_goals rfl
@[simp] theorem clockTick_tables (s : State) : (clockTick s).tables = s.tables := by
  unfold clockTick; repeat' split
  all_goals rfl
@[simp] theorem clockTick_turns (s : State) : (clockTick s).turns = s.turns := by
  unfold clockTick; repeat' split
  all_goals rfl
@[simp] theorem clockTick_hostProg (s : State) : (clockTick s).hostProg = s.hostProg := by
  unfold clockTick; repeat' split
  all_goals rfl
@[simp] theorem clockTick_answers (s : State) : (clockTick s).answers = s.answers := by
  unfold clockTick; repeat' split
  all_goals rfl
@[simp] theorem clockTick_trace (s : State) : (clockTick s).trace = s.trace := by
  unfold clockTick; repeat' split
  all_goals rfl
@[simp] theorem clockTick_pin (s : State) : (clockTick s).pin = s.pin := by
  unfold clockTick; repeat' split
  all_goals rfl

/-! ### hostWrite -/

@[simp] theorem hostWrite_encStat (k : BitVec 4) (v : Word) (s : State) : (hostWrite k v s).encStat = s.encStat := by
  unfold hostWrite; repeat' split
  all_goals rfl
@[simp] theorem hostWrite_seqState (k : BitVec 4) (v : Word) (s : State) : (hostWrite k v s).seqState = s.seqState := by
  unfold hostWrite; repeat' split
  all_goals rfl
@[simp] theorem hostWrite_exported (k : BitVec 4) (v : Word) (s : State) : (hostWrite k v s).exported = s.exported := by
  unfold hostWrite; repeat' split
  all_goals rfl
@[simp] theorem hostWrite_line (k : BitVec 4) (v : Word) (s : State) : (hostWrite k v s).line = s.line := by
  unfold hostWrite; repeat' split
  all_goals rfl
@[simp] theorem hostWrite_cancelPend (k : BitVec 4) (v : Word) (s : State) : (hostWrite k v s).cancelPend = s.cancelPend := by
  unfold hostWrite; repeat' split
  all_goals rfl
@[simp] theorem hostWrite_txStat (k : BitVec 4) (v : Word) (s : State) : (hostWrite k v s).txStat = s.txStat := by
  unfold hostWrite; repeat' split
  all_goals rfl
@[simp] theorem hostWrite_pos (k : BitVec 4) (v : Word) (s : State) : (hostWrite k v s).pos = s.pos := by
  unfold hostWrite; repeat' split
  all_goals rfl
@[simp] theorem hostWrite_shadow (k : BitVec 4) (v : Word) (s : State) : (hostWrite k v s).shadow = s.shadow := by
  unfold hostWrite; repeat' split
  all_goals rfl
@[simp] theorem hostWrite_wrcnt (k : BitVec 4) (v : Word) (s : State) : (hostWrite k v s).wrcnt = s.wrcnt := by
  unfold hostWrite; repeat' split
  all_goals rfl
@[simp] theorem hostWrite_tmr (k : BitVec 4) (v : Word) (s : State) : (hostWrite k v s).tmr = s.tmr := by
  unfold hostWrite; repeat' split
  all_goals rfl
@[simp] theorem hostWrite_slReq (k : BitVec 4) (v : Word) (s : State) : (hostWrite k v s).slReq = s.slReq := by
  unfold hostWrite; repeat' split
  all_goals rfl
@[simp] theorem hostWrite_slVal (k : BitVec 4) (v : Word) (s : State) : (hostWrite k v s).slVal = s.slVal := by
  unfold hostWrite; repeat' split
  all_goals rfl
@[simp] theorem hostWrite_held (k : BitVec 4) (v : Word) (s : State) : (hostWrite k v s).held = s.held := by
  unfold hostWrite; repeat' split
  all_goals rfl
@[simp] theorem hostWrite_regRdata (k : BitVec 4) (v : Word) (s : State) : (hostWrite k v s).regRdata = s.regRdata := by
  unfold hostWrite; repeat' split
  all_goals rfl
@[simp] theorem hostWrite_cancelI (k : BitVec 4) (v : Word) (s : State) : (hostWrite k v s).cancelI = s.cancelI := by
  unfold hostWrite; repeat' split
  all_goals rfl
@[simp] theorem hostWrite_tables (k : BitVec 4) (v : Word) (s : State) : (hostWrite k v s).tables = s.tables := by
  unfold hostWrite; repeat' split
  all_goals rfl
@[simp] theorem hostWrite_turns (k : BitVec 4) (v : Word) (s : State) : (hostWrite k v s).turns = s.turns := by
  unfold hostWrite; repeat' split
  all_goals rfl
@[simp] theorem hostWrite_hostProg (k : BitVec 4) (v : Word) (s : State) : (hostWrite k v s).hostProg = s.hostProg := by
  unfold hostWrite; repeat' split
  all_goals rfl
@[simp] theorem hostWrite_answers (k : BitVec 4) (v : Word) (s : State) : (hostWrite k v s).answers = s.answers := by
  unfold hostWrite; repeat' split
  all_goals rfl
@[simp] theorem hostWrite_trace (k : BitVec 4) (v : Word) (s : State) : (hostWrite k v s).trace = s.trace := by
  unfold hostWrite; repeat' split
  all_goals rfl
@[simp] theorem hostWrite_pin (k : BitVec 4) (v : Word) (s : State) : (hostWrite k v s).pin = s.pin := by
  unfold hostWrite; repeat' split
  all_goals rfl

/-! ### advance -/

@[simp] theorem advance_cw (prim : Prim) (s : State) : (advance prim s).cw = s.cw := by
  unfold advance; repeat' split
  all_goals rfl
@[simp] theorem advance_encStat (prim : Prim) (s : State) : (advance prim s).encStat = s.encStat := by
  unfold advance; repeat' split
  all_goals rfl
@[simp] theorem advance_exported (prim : Prim) (s : State) : (advance prim s).exported = s.exported := by
  unfold advance; repeat' split
  all_goals rfl
@[simp] theorem advance_line (prim : Prim) (s : State) : (advance prim s).line = s.line := by
  unfold advance; repeat' split
  all_goals rfl
@[simp] theorem advance_cancelPend (prim : Prim) (s : State) : (advance prim s).cancelPend = s.cancelPend := by
  unfold advance; repeat' split
  all_goals rfl
@[simp] theorem advance_txStat (prim : Prim) (s : State) : (advance prim s).txStat = s.txStat := by
  unfold advance; repeat' split
  all_goals rfl
@[simp] theorem advance_shadow (prim : Prim) (s : State) : (advance prim s).shadow = s.shadow := by
  unfold advance; repeat' split
  all_goals rfl
@[simp] theorem advance_wrcnt (prim : Prim) (s : State) : (advance prim s).wrcnt = s.wrcnt := by
  unfold advance; repeat' split
  all_goals rfl
@[simp] theorem advance_tmr (prim : Prim) (s : State) : (advance prim s).tmr = s.tmr := by
  unfold advance; repeat' split
  all_goals rfl
@[simp] theorem advance_slReq (prim : Prim) (s : State) : (advance prim s).slReq = s.slReq := by
  unfold advance; repeat' split
  all_goals rfl
@[simp] theorem advance_slVal (prim : Prim) (s : State) : (advance prim s).slVal = s.slVal := by
  unfold advance; repeat' split
  all_goals rfl
@[simp] theorem advance_held (prim : Prim) (s : State) : (advance prim s).held = s.held := by
  unfold advance; repeat' split
  all_goals rfl
@[simp] theorem advance_regRdata (prim : Prim) (s : State) : (advance prim s).regRdata = s.regRdata := by
  unfold advance; repeat' split
  all_goals rfl
@[simp] theorem advance_cancelI (prim : Prim) (s : State) : (advance prim s).cancelI = s.cancelI := by
  unfold advance; repeat' split
  all_goals rfl
@[simp] theorem advance_tables (prim : Prim) (s : State) : (advance prim s).tables = s.tables := by
  unfold advance; repeat' split
  all_goals rfl
@[simp] theorem advance_turns (prim : Prim) (s : State) : (advance prim s).turns = s.turns := by
  unfold advance; repeat' split
  all_goals rfl
@[simp] theorem advance_hostProg (prim : Prim) (s : State) : (advance prim s).hostProg = s.hostProg := by
  unfold advance; repeat' split
  all_goals rfl
@[simp] theorem advance_answers (prim : Prim) (s : State) : (advance prim s).answers = s.answers := by
  unfold advance; repeat' split
  all_goals rfl
@[simp] theorem advance_trace (prim : Prim) (s : State) : (advance prim s).trace = s.trace := by
  unfold advance; repeat' split
  all_goals rfl
@[simp] theorem advance_pin (prim : Prim) (s : State) : (advance prim s).pin = s.pin := by
  unfold advance; repeat' split
  all_goals rfl

/-! ### encFrame -/

@[simp] theorem encFrame_seqState (f : Family) (w : List Symbol) (p : BitVec 4) (m sl : BitVec 8) (s : State) : (encFrame f w p m sl s).seqState = s.seqState := by
  unfold encFrame; repeat' split
  all_goals rfl
@[simp] theorem encFrame_exported (f : Family) (w : List Symbol) (p : BitVec 4) (m sl : BitVec 8) (s : State) : (encFrame f w p m sl s).exported = s.exported := by
  unfold encFrame; repeat' split
  all_goals rfl
@[simp] theorem encFrame_line (f : Family) (w : List Symbol) (p : BitVec 4) (m sl : BitVec 8) (s : State) : (encFrame f w p m sl s).line = s.line := by
  unfold encFrame; repeat' split
  all_goals rfl
@[simp] theorem encFrame_cancelPend (f : Family) (w : List Symbol) (p : BitVec 4) (m sl : BitVec 8) (s : State) : (encFrame f w p m sl s).cancelPend = s.cancelPend := by
  unfold encFrame; repeat' split
  all_goals rfl
@[simp] theorem encFrame_txStat (f : Family) (w : List Symbol) (p : BitVec 4) (m sl : BitVec 8) (s : State) : (encFrame f w p m sl s).txStat = s.txStat := by
  unfold encFrame; repeat' split
  all_goals rfl
@[simp] theorem encFrame_pos (f : Family) (w : List Symbol) (p : BitVec 4) (m sl : BitVec 8) (s : State) : (encFrame f w p m sl s).pos = s.pos := by
  unfold encFrame; repeat' split
  all_goals rfl
@[simp] theorem encFrame_shadow (f : Family) (w : List Symbol) (p : BitVec 4) (m sl : BitVec 8) (s : State) : (encFrame f w p m sl s).shadow = s.shadow := by
  unfold encFrame; repeat' split
  all_goals rfl
@[simp] theorem encFrame_wrcnt (f : Family) (w : List Symbol) (p : BitVec 4) (m sl : BitVec 8) (s : State) : (encFrame f w p m sl s).wrcnt = s.wrcnt := by
  unfold encFrame; repeat' split
  all_goals rfl
@[simp] theorem encFrame_tmr (f : Family) (w : List Symbol) (p : BitVec 4) (m sl : BitVec 8) (s : State) : (encFrame f w p m sl s).tmr = s.tmr := by
  unfold encFrame; repeat' split
  all_goals rfl
@[simp] theorem encFrame_slReq (f : Family) (w : List Symbol) (p : BitVec 4) (m sl : BitVec 8) (s : State) : (encFrame f w p m sl s).slReq = s.slReq := by
  unfold encFrame; repeat' split
  all_goals rfl
@[simp] theorem encFrame_slVal (f : Family) (w : List Symbol) (p : BitVec 4) (m sl : BitVec 8) (s : State) : (encFrame f w p m sl s).slVal = s.slVal := by
  unfold encFrame; repeat' split
  all_goals rfl
@[simp] theorem encFrame_held (f : Family) (w : List Symbol) (p : BitVec 4) (m sl : BitVec 8) (s : State) : (encFrame f w p m sl s).held = s.held := by
  unfold encFrame; repeat' split
  all_goals rfl
@[simp] theorem encFrame_regRdata (f : Family) (w : List Symbol) (p : BitVec 4) (m sl : BitVec 8) (s : State) : (encFrame f w p m sl s).regRdata = s.regRdata := by
  unfold encFrame; repeat' split
  all_goals rfl
@[simp] theorem encFrame_cancelI (f : Family) (w : List Symbol) (p : BitVec 4) (m sl : BitVec 8) (s : State) : (encFrame f w p m sl s).cancelI = s.cancelI := by
  unfold encFrame; repeat' split
  all_goals rfl
@[simp] theorem encFrame_tables (f : Family) (w : List Symbol) (p : BitVec 4) (m sl : BitVec 8) (s : State) : (encFrame f w p m sl s).tables = s.tables := by
  unfold encFrame; repeat' split
  all_goals rfl
@[simp] theorem encFrame_turns (f : Family) (w : List Symbol) (p : BitVec 4) (m sl : BitVec 8) (s : State) : (encFrame f w p m sl s).turns = s.turns := by
  unfold encFrame; repeat' split
  all_goals rfl
@[simp] theorem encFrame_hostProg (f : Family) (w : List Symbol) (p : BitVec 4) (m sl : BitVec 8) (s : State) : (encFrame f w p m sl s).hostProg = s.hostProg := by
  unfold encFrame; repeat' split
  all_goals rfl
@[simp] theorem encFrame_answers (f : Family) (w : List Symbol) (p : BitVec 4) (m sl : BitVec 8) (s : State) : (encFrame f w p m sl s).answers = s.answers := by
  unfold encFrame; repeat' split
  all_goals rfl
@[simp] theorem encFrame_trace (f : Family) (w : List Symbol) (p : BitVec 4) (m sl : BitVec 8) (s : State) : (encFrame f w p m sl s).trace = s.trace := by
  unfold encFrame; repeat' split
  all_goals rfl
@[simp] theorem encFrame_pin (f : Family) (w : List Symbol) (p : BitVec 4) (m sl : BitVec 8) (s : State) : (encFrame f w p m sl s).pin = s.pin := by
  unfold encFrame; repeat' split
  all_goals rfl

/-! ### encUndefFrame -/

@[simp] theorem encUndefFrame_cw (fam p : BitVec 4) (s : State) : (encUndefFrame fam p s).cw = s.cw := by
  unfold encUndefFrame; repeat' split
  all_goals rfl
@[simp] theorem encUndefFrame_seqState (fam p : BitVec 4) (s : State) : (encUndefFrame fam p s).seqState = s.seqState := by
  unfold encUndefFrame; repeat' split
  all_goals rfl
@[simp] theorem encUndefFrame_exported (fam p : BitVec 4) (s : State) : (encUndefFrame fam p s).exported = s.exported := by
  unfold encUndefFrame; repeat' split
  all_goals rfl
@[simp] theorem encUndefFrame_line (fam p : BitVec 4) (s : State) : (encUndefFrame fam p s).line = s.line := by
  unfold encUndefFrame; repeat' split
  all_goals rfl
@[simp] theorem encUndefFrame_cancelPend (fam p : BitVec 4) (s : State) : (encUndefFrame fam p s).cancelPend = s.cancelPend := by
  unfold encUndefFrame; repeat' split
  all_goals rfl
@[simp] theorem encUndefFrame_txStat (fam p : BitVec 4) (s : State) : (encUndefFrame fam p s).txStat = s.txStat := by
  unfold encUndefFrame; repeat' split
  all_goals rfl
@[simp] theorem encUndefFrame_pos (fam p : BitVec 4) (s : State) : (encUndefFrame fam p s).pos = s.pos := by
  unfold encUndefFrame; repeat' split
  all_goals rfl
@[simp] theorem encUndefFrame_shadow (fam p : BitVec 4) (s : State) : (encUndefFrame fam p s).shadow = s.shadow := by
  unfold encUndefFrame; repeat' split
  all_goals rfl
@[simp] theorem encUndefFrame_wrcnt (fam p : BitVec 4) (s : State) : (encUndefFrame fam p s).wrcnt = s.wrcnt := by
  unfold encUndefFrame; repeat' split
  all_goals rfl
@[simp] theorem encUndefFrame_tmr (fam p : BitVec 4) (s : State) : (encUndefFrame fam p s).tmr = s.tmr := by
  unfold encUndefFrame; repeat' split
  all_goals rfl
@[simp] theorem encUndefFrame_slReq (fam p : BitVec 4) (s : State) : (encUndefFrame fam p s).slReq = s.slReq := by
  unfold encUndefFrame; repeat' split
  all_goals rfl
@[simp] theorem encUndefFrame_slVal (fam p : BitVec 4) (s : State) : (encUndefFrame fam p s).slVal = s.slVal := by
  unfold encUndefFrame; repeat' split
  all_goals rfl
@[simp] theorem encUndefFrame_held (fam p : BitVec 4) (s : State) : (encUndefFrame fam p s).held = s.held := by
  unfold encUndefFrame; repeat' split
  all_goals rfl
@[simp] theorem encUndefFrame_regRdata (fam p : BitVec 4) (s : State) : (encUndefFrame fam p s).regRdata = s.regRdata := by
  unfold encUndefFrame; repeat' split
  all_goals rfl
@[simp] theorem encUndefFrame_cancelI (fam p : BitVec 4) (s : State) : (encUndefFrame fam p s).cancelI = s.cancelI := by
  unfold encUndefFrame; repeat' split
  all_goals rfl
@[simp] theorem encUndefFrame_tables (fam p : BitVec 4) (s : State) : (encUndefFrame fam p s).tables = s.tables := by
  unfold encUndefFrame; repeat' split
  all_goals rfl
@[simp] theorem encUndefFrame_turns (fam p : BitVec 4) (s : State) : (encUndefFrame fam p s).turns = s.turns := by
  unfold encUndefFrame; repeat' split
  all_goals rfl
@[simp] theorem encUndefFrame_hostProg (fam p : BitVec 4) (s : State) : (encUndefFrame fam p s).hostProg = s.hostProg := by
  unfold encUndefFrame; repeat' split
  all_goals rfl
@[simp] theorem encUndefFrame_answers (fam p : BitVec 4) (s : State) : (encUndefFrame fam p s).answers = s.answers := by
  unfold encUndefFrame; repeat' split
  all_goals rfl
@[simp] theorem encUndefFrame_trace (fam p : BitVec 4) (s : State) : (encUndefFrame fam p s).trace = s.trace := by
  unfold encUndefFrame; repeat' split
  all_goals rfl
@[simp] theorem encUndefFrame_pin (fam p : BitVec 4) (s : State) : (encUndefFrame fam p s).pin = s.pin := by
  unfold encUndefFrame; repeat' split
  all_goals rfl

/-! ### beginTurn -/

@[simp] theorem beginTurn_cw (s : State) : (beginTurn s).cw = s.cw := by
  simp [beginTurn]
@[simp] theorem beginTurn_encStat (s : State) : (beginTurn s).encStat = s.encStat := by
  simp [beginTurn]
@[simp] theorem beginTurn_seqState (s : State) : (beginTurn s).seqState = s.seqState := by
  simp [beginTurn]
@[simp] theorem beginTurn_exported (s : State) : (beginTurn s).exported = s.exported := by
  simp [beginTurn]
@[simp] theorem beginTurn_line (s : State) : (beginTurn s).line = s.line := by
  simp [beginTurn]
@[simp] theorem beginTurn_txStat (s : State) : (beginTurn s).txStat = s.txStat := by
  simp [beginTurn]
@[simp] theorem beginTurn_pos (s : State) : (beginTurn s).pos = s.pos := by
  simp [beginTurn]
@[simp] theorem beginTurn_shadow (s : State) : (beginTurn s).shadow = s.shadow := by
  simp [beginTurn]
@[simp] theorem beginTurn_wrcnt (s : State) : (beginTurn s).wrcnt = s.wrcnt := by
  simp [beginTurn]
@[simp] theorem beginTurn_tmr (s : State) : (beginTurn s).tmr = s.tmr := by
  simp [beginTurn]
@[simp] theorem beginTurn_slReq (s : State) : (beginTurn s).slReq = s.slReq := by
  simp [beginTurn]
@[simp] theorem beginTurn_slVal (s : State) : (beginTurn s).slVal = s.slVal := by
  simp [beginTurn]
@[simp] theorem beginTurn_held (s : State) : (beginTurn s).held = s.held := by
  simp [beginTurn]
@[simp] theorem beginTurn_regRdata (s : State) : (beginTurn s).regRdata = s.regRdata := by
  simp [beginTurn]
@[simp] theorem beginTurn_cancelI (s : State) : (beginTurn s).cancelI = s.cancelI := by
  simp [beginTurn]
@[simp] theorem beginTurn_tables (s : State) : (beginTurn s).tables = s.tables := by
  simp [beginTurn]
@[simp] theorem beginTurn_turns (s : State) : (beginTurn s).turns = s.turns.tail := by
  simp [beginTurn]
@[simp] theorem beginTurn_hostProg (s : State) : (beginTurn s).hostProg = s.hostProg := by
  simp [beginTurn]
@[simp] theorem beginTurn_answers (s : State) : (beginTurn s).answers = s.answers := by
  simp [beginTurn]
@[simp] theorem beginTurn_trace (s : State) : (beginTurn s).trace = s.trace := by
  simp [beginTurn]
@[simp] theorem beginTurn_pin (s : State) : (beginTurn s).pin = s.pin := by
  simp [beginTurn]

/-- The cancel request is latched while the sequencer is busy, and dropped while it is Idle (R33, R184). -/
theorem requestCancel_cancelPend (s : State) :
    (requestCancel s).cancelPend = (s.cancelPend || s.busy) := by
  unfold requestCancel State.busy
  split <;> simp_all

/-- The pin acts as a request while it is 1 (R184). -/
theorem sampleCancel_cancelPend (s : State) :
    (sampleCancel s).cancelPend = (s.cancelPend || (s.cancelI && s.busy)) := by
  unfold sampleCancel
  split <;> simp_all [requestCancel_cancelPend]

theorem beginTurn_cancelPend (s : State) :
    (beginTurn s).cancelPend = (s.cancelPend || (s.cancelI && s.busy)) := by
  simp [beginTurn, sampleCancel_cancelPend, State.busy]

/-- With the pin at 0 a step begins by taking its turn and nothing else. -/
theorem beginTurn_of_pin_low (s : State) (h : s.cancelI = false) : beginTurn s = { s with turns := s.turns.tail } := by
  simp [beginTurn, sampleCancel, h]

end Sys2Proof.Machine
end

