-- ==== Sys2Proof/Laws/Ops.lean ====
section
/-! SUPPORT. One lemma per shared operation: everything it can do. -/

namespace Sys2Proof.Machine

/-! ## Protocols -/

theorem protoSupported_iff (p : BitVec 4) : protoSupported p = true ↔ p = 1 ∨ p = 2 ∨ p = 3 := by
  unfold protoSupported protocolRow
  repeat' split
  all_goals simp_all

theorem protocolRow_eq_none_iff (p : BitVec 4) : protocolRow p = none ↔ protoSupported p = false := by
  unfold protoSupported
  cases protocolRow p <;> simp

theorem protocolRow_of_supported {p : BitVec 4} (h : protoSupported p = true) : ∃ row, protocolRow p = some row :=
  Option.isSome_iff_exists.mp h

/-- The default repeat count is 10 in every row (R166). -/
theorem protocolRow_defaultRepeat {p : BitVec 4} {row : ProtocolRow} (h : protocolRow p = some row) :
    row.defaultRepeat = 10 := by
  unfold protocolRow at h
  repeat' split at h
  all_goals simp_all
  all_goals subst h; rfl

/-- The ratios of R166: 31, 10, 71. -/
theorem protocolRow_syncRatio {p : BitVec 4} {row : ProtocolRow} (h : protocolRow p = some row) :
    row.syncRatio = if p = 1 then 31 else if p = 2 then 10 else 71 := by
  unfold protocolRow at h
  repeat' split at h
  all_goals simp_all
  all_goals subst h; rfl

/-- A unit lasts at least one microsecond (R8). -/
theorem protocolRow_unitUs_pos {p : BitVec 4} {row : ProtocolRow} (h : protocolRow p = some row) : 1 ≤ row.unitUs := by
  unfold protocolRow at h
  repeat' split at h
  all_goals simp_all
  all_goals subst h; simp

/-! ## The encoder's frames -/

/-- An `ENC` of a family does exactly one of four things, in this order (R131, R240). -/
theorem encFrame_cases (f : Family) (w : List Symbol) (p : BitVec 4) (m sl : BitVec 8) (s : State) :
    (protoSupported p = false ∧ encFrame f w p m sl s = raiseEnc .unsupportedProtocol false (p.zeroExtend 8) s) ∨
    (protoSupported p = true ∧ masterInTable f m = false ∧ encFrame f w p m sl s = raiseEnc .unsupportedAddress false m s) ∨
    (protoSupported p = true ∧ masterInTable f m = true ∧ slaveInTable f sl = false ∧
      encFrame f w p m sl s = raiseEnc .unsupportedAddress true sl s) ∨
    (protoSupported p = true ∧ masterInTable f m = true ∧ slaveInTable f sl = true ∧
      encFrame f w p m sl s = storeCodeword w s) := by
  unfold encFrame
  cases protoSupported p <;> cases masterInTable f m <;> cases slaveInTable f sl <;> simp

/-- An `ENC` of no family raises one of two errors (R146). -/
theorem encUndefFrame_cases (fam p : BitVec 4) (s : State) :
    (protoSupported p = false ∧ encUndefFrame fam p s = raiseEnc .unsupportedProtocol false (p.zeroExtend 8) s) ∨
    (protoSupported p = true ∧ encUndefFrame fam p s = raiseEnc .unsupportedVendor false (fam.zeroExtend 8) s) := by
  unfold encUndefFrame
  cases protoSupported p <;> simp

/-! ## TX and TXR -/

/-- What a TX or TXR that answers a next state has done (R182, R183). -/
theorem startTx_next {i : Instr} {p : BitVec 4} {count : ProtocolRow → BitVec 16} {s t : State}
    (h : startTx i p count s = .next t) :
    (s.seqState ≠ .idle ∧ t = holdWrite i s) ∨
    (s.seqState = .idle ∧ protocolRow p = none ∧ t = rejectTx p s) ∨
    (∃ row, s.seqState = .idle ∧ protocolRow p = some row ∧ s.cw.hasReserved = false ∧ t = acceptTx p (count row) s) := by
  unfold startTx at h
  split at h
  · exact .inl ⟨‹_›, (Host.Outcome.next.inj h).symm⟩
  · have hs : s.seqState = .idle := by simp_all
    split at h
    · exact .inr (.inl ⟨hs, ‹_›, (Host.Outcome.next.inj h).symm⟩)
    · split at h
      · cases h
      · exact .inr (.inr ⟨_, hs, ‹_›, by simp_all, (Host.Outcome.next.inj h).symm⟩)

/-- A TX or TXR never faults, and is refused only with the reserved code in CW (R93). -/
theorem startTx_stops (i : Instr) (p : BitVec 4) (count : ProtocolRow → BitVec 16) (s : State) :
    (∀ r, startTx i p count s ≠ .fault r) ∧
    (∀ r, startTx i p count s = .refused r →
      r = .reservedSymbol ∧ s.seqState = .idle ∧ protoSupported p = true ∧ s.cw.hasReserved = true) := by
  unfold startTx
  split
  · simp
  · have hs : s.seqState = .idle := by simp_all
    cases hr : protocolRow p with
    | none => simp
    | some row =>
      have hp : protoSupported p = true := by simp [protoSupported, hr]
      cases hc : s.cw.hasReserved <;> simp_all

/-! ## LINE's answer -/

/-- What an answer that answers a next state has done (R189, R200). -/
theorem lineAnswer_next {a : Answer} {s t : State} (h : lineAnswer a s = .next t) :
    (s.slReq = false ∧ t = s) ∨
    (s.slReq = true ∧ a = .error ∧ t = answerError s) ∨
    (∃ prim row k, s.slReq = true ∧ a = .ok ∧ currentPrim s = some prim ∧ protocolRow s.shadow.proto = some row ∧
      unitsOf prim s.shadow.proto s.pos.ph = .ok k ∧ t = answerOk (waitCycles k row) s) := by
  unfold lineAnswer at h
  split at h
  · exact .inl ⟨‹_›, (Host.Outcome.next.inj h).symm⟩
  · have hr : s.slReq = true := by simp_all
    split at h
    · exact .inr (.inl ⟨hr, rfl, (Host.Outcome.next.inj h).symm⟩)
    · split at h
      · cases h
      · cases h
      · split at h
        · cases h
        · exact .inr (.inr ⟨_, _, _, hr, rfl, ‹_›, ‹_›, ‹_›, (Host.Outcome.next.inj h).symm⟩)

/-- LINE's answer is never refused. -/
theorem lineAnswer_not_refused (a : Answer) (s : State) (r : Refusal) : lineAnswer a s ≠ .refused r := by
  unfold lineAnswer
  repeat' split
  all_goals simp

/-! ## The steps of the sequencer -/

theorem writeStep_next {prim : Prim} {s t : State} (h : writeStep prim s = .next t) :
    (s.slReq = true ∧ t = s) ∨
    (s.slReq = false ∧ s.cancelPend = true ∧ t = complete .cancelled s) ∨
    (s.slReq = false ∧ s.cancelPend = false ∧ ¬lastPhase prim < s.pos.ph ∧ t = issueRequest s) := by
  unfold writeStep at h
  repeat' split at h
  all_goals simp_all

theorem waitStep_next {prim : Prim} {s t : State} (h : waitStep prim s = .next t) :
    (s.cancelPend = true ∧ t = complete .cancelled s) ∨
    (∃ k, s.cancelPend = false ∧ unitsOf prim s.shadow.proto s.pos.ph = .ok k ∧
      t = advance prim (emit (.wait k s.shadow.proto) { s with tmr := 0 })) := by
  unfold waitStep at h
  repeat' split at h
  all_goals simp_all

/-- What the next event of a primitive can do (R189 to R192, R198). -/
theorem primStep_next {prim : Prim} {s t : State} (h : primStep prim s = .next t) :
    (s.pos.sub = .write ∧ s.slReq = true ∧ t = s) ∨
    (s.pos.sub = .write ∧ s.slReq = false ∧ s.cancelPend = true ∧ t = complete .cancelled s) ∨
    (s.pos.sub = .write ∧ s.slReq = false ∧ s.cancelPend = false ∧ ¬lastPhase prim < s.pos.ph ∧ t = issueRequest s) ∨
    (s.pos.sub = .wait ∧ s.cancelPend = true ∧ t = complete .cancelled s) ∨
    (∃ k, s.pos.sub = .wait ∧ s.cancelPend = false ∧ unitsOf prim s.shadow.proto s.pos.ph = .ok k ∧
      t = advance prim (emit (.wait k s.shadow.proto) { s with tmr := 0 })) := by
  unfold primStep at h
  split at h
  · rcases writeStep_next h with ⟨h1, h2⟩ | ⟨h1, h2, h3⟩ | ⟨h1, h2, h3, h4⟩ <;> simp_all
  · rcases waitStep_next h with ⟨h1, h2⟩ | ⟨k, h1, h2, h3⟩ <;> simp_all

theorem primStep_not_refused (prim : Prim) (s : State) (r : Refusal) : primStep prim s ≠ .refused r := by
  unfold primStep writeStep waitStep
  repeat' split
  all_goals simp

/-- Where the position goes at the end of a wait (R192). -/
theorem advance_cases (prim : Prim) (s : State) :
    (s.pos.ph < lastPhase prim ∧ advance prim s = { s with pos := { s.pos with ph := s.pos.ph + 1, sub := .write } }) ∨
    (¬s.pos.ph < lastPhase prim ∧ s.pos.i < s.shadow.cw.len ∧
      advance prim s = { s with pos := { s.pos with i := s.pos.i + 1, ph := 0, sub := .write } }) ∨
    (¬s.pos.ph < lastPhase prim ∧ ¬s.pos.i < s.shadow.cw.len ∧ advance prim s = { s with seqState := .repeating }) := by
  unfold advance
  split
  · simp_all
  · split <;> simp_all

/-- The Exporting step ends by a cancel, with no frame to send, or in Framing (R186). -/
theorem exportStep_cases (s : State) :
    (s.cancelPend = true ∧ exportStep s = complete .cancelled s) ∨
    (s.cancelPend = false ∧ s.shadow.rep = 0 ∧ exportStep s = complete .ok (emit .exported (activateLine s))) ∨
    (s.cancelPend = false ∧ s.shadow.rep ≠ 0 ∧
      exportStep s =
        { emit .exported (activateLine s) with
          pos := { r := 0, i := 0, ph := 0, sub := .write }, seqState := .framing }) := by
  unfold exportStep
  split
  · simp_all
  · by_cases hr : s.shadow.rep = 0 <;> simp_all

/-- The Repeating step ends by a cancel, with another frame, or after the last one (R194). -/
theorem repeatStep_cases (s : State) :
    (s.cancelPend = true ∧ repeatStep s = complete .cancelled s) ∨
    (s.cancelPend = false ∧ s.pos.r + 1 < s.shadow.rep ∧
      repeatStep s = { s with pos := { r := s.pos.r + 1, i := 0, ph := 0, sub := .write }, seqState := .framing }) ∨
    (s.cancelPend = false ∧ ¬s.pos.r + 1 < s.shadow.rep ∧
      repeatStep s = complete .ok { s with pos := { s.pos with r := s.pos.r + 1 } }) := by
  unfold repeatStep
  split
  · simp_all
  · by_cases hr : s.pos.r + 1 < s.shadow.rep <;> simp_all

/-! ## Phases -/

theorem phase_cases (ph : BitVec 2) : ph = 0 ∨ ph = 1 ∨ ph = 2 ∨ ph = 3 := by
  revert ph
  decide

/-- The row ZERO of R188's table. -/
theorem unitsOf_zero (p : BitVec 4) (ph : BitVec 2) :
    unitsOf (.sym .zero) p ph = .ok (if ph = 0 ∨ ph = 2 then 1 else 3) := by
  rcases phase_cases ph with rfl | rfl | rfl | rfl <;> rfl

/-- The row ONE of R188's table. -/
theorem unitsOf_one (p : BitVec 4) (ph : BitVec 2) :
    unitsOf (.sym .one) p ph = .ok (if ph = 0 ∨ ph = 2 then 3 else 1) := by
  rcases phase_cases ph with rfl | rfl | rfl | rfl <;> rfl

/-- The row FLOAT of R188's table. -/
theorem unitsOf_float (p : BitVec 4) (ph : BitVec 2) :
    unitsOf (.sym .float) p ph = .ok (if ph = 0 ∨ ph = 3 then 1 else 3) := by
  rcases phase_cases ph with rfl | rfl | rfl | rfl <;> rfl

/-- Every cell of a symbol's row has units. -/
theorem unitsOf_sym (x : Symbol) (p : BitVec 4) (ph : BitVec 2) : ∃ k, unitsOf (.sym x) p ph = .ok k := by
  cases x
  · exact ⟨_, unitsOf_zero p ph⟩
  · exact ⟨_, unitsOf_one p ph⟩
  · exact ⟨_, unitsOf_float p ph⟩

/-- The row SYNC of R188's table. -/
theorem unitsOf_sync {p : BitVec 4} {row : ProtocolRow} (h : protocolRow p = some row) (ph : BitVec 2) :
    unitsOf .sync p ph =
      if ph = 0 then .ok 1 else if ph = 1 then .ok row.syncRatio else .error .phaseOutOfTable := by
  unfold unitsOf
  rw [h]
  rcases phase_cases ph with rfl | rfl | rfl | rfl <;> rfl

/-- High in even phases, Low in odd ones (R188). -/
theorem levelOf_eq (ph : BitVec 2) : levelOf ph = if ph = 0 ∨ ph = 2 then .high else .low := by
  rcases phase_cases ph with rfl | rfl | rfl | rfl <;> rfl

end Sys2Proof.Machine
end

