-- ==== Sys2Proof/Laws/PerInstr.lean ====
section
/-! SUPPORT. Statements about every instruction, one lemma per constructor. `MatchesTable`: the encoder's code of a
well-formed instruction has the bits that its row of spec/opcode_table.json fixes (its match under its mask, or its
primitive-select pattern). -/

namespace Sys2Proof.Laws

/-- The row of spec/opcode_table.json: the bits (match, mask) of a command word, or of the primitive select. -/
def tableRow : Instr → Code × Code
  | .nop => (.command 0x00000000, .command 0x0000000F)
  | .encElro _ _ _ _ => (.command 0x00000001, .command 0x000000FF)
  | .encIt _ _ _ _ => (.command 0x00000011, .command 0x000000FF)
  | .encItPar _ _ _ _ => (.command 0x00000021, .command 0x000000FF)
  | .encDario _ _ _ _ => (.command 0x00000031, .command 0x000000FF)
  | .encUndefLow _ _ _ _ _ => (.command 0x00000041, .command 0x000000CF)
  | .encUndefHigh _ _ _ _ _ => (.command 0x00000081, .command 0x0000008F)
  | .tx _ => (.command 0x00000002, .command 0x0000000F)
  | .txr _ _ => (.command 0x00000003, .command 0x0000000F)
  | .cancel => (.command 0x00000004, .command 0x0000000F)
  | .zero => (.select 0b000, .select 0b111)
  | .one => (.select 0b001, .select 0b111)
  | .float => (.select 0b010, .select 0b111)
  | .sync => (.select 0b100, .select 0b100)

/-- A code has the fixed bits of a row. -/
def hasFixedBits (c : Code) (row : Code × Code) : Prop :=
  match c, row with
  | .command w, (.command v, .command m) => w &&& m = v
  | .select b, (.select v, .select m) => b &&& m = v
  | _, _ => False

/-- The instruction's code has the bits its row fixes. -/
def MatchesTable.Statement (i : Instr) : Prop :=
  WellFormed i → hasFixedBits (encode i) (tableRow i)

/-- A word's low byte decides the rows of format E. -/
theorem formatE_low_byte (f p : BitVec 4) (st : Status) (m s : BitVec 8) :
    formatE f p st m s &&& 0xFF = (0 : BitVec 24) ++ (f ++ (1 : BitVec 4)) := by
  apply BitVec.eq_of_getLsbD_eq
  intro i hi
  have e : ((0 : BitVec 24) ++ (f ++ (1 : BitVec 4))).getLsbD i =
      if i < 4 then (1 : BitVec 4).getLsbD i else if i < 8 then f.getLsbD (i - 4) else false := by
    simp only [BitVec.getLsbD_append]
    have h1 : (i - 4 < 4) ↔ i < 8 := by omega
    repeat' split
    all_goals first | omega | simp
  rw [BitVec.getLsbD_and, formatE_getLsbD]
  refine Eq.trans ?_ e.symm
  have hm : (0xFF : BitVec 32).getLsbD i = decide (i < 8) := by
    clear e
    interval_cases i <;> decide
  rw [hm]
  by_cases h4 : i < 4
  · have h8 : i < 8 := by omega
    simp [h4, h8]
  · by_cases h8 : i < 8 <;> simp [h4, h8]

theorem formatE_masked (f p : BitVec 4) (st : Status) (m s : BitVec 8) (mask v : Word)
    (hsub : mask = mask &&& 0xFF) (h : ((0 : BitVec 24) ++ (f ++ (1 : BitVec 4))) &&& mask = v) :
    formatE f p st m s &&& mask = v := by
  have e : formatE f p st m s &&& mask = (formatE f p st m s &&& 0xFF) &&& mask := by
    rw [BitVec.and_assoc, BitVec.and_comm 0xFF mask, ← hsub]
  rw [e, formatE_low_byte]
  exact h

theorem formatT_masked (op p : BitVec 4) (n : BitVec 16) : formatT op p n &&& 0xF = (0 : BitVec 28) ++ op := by
  apply BitVec.eq_of_getLsbD_eq
  intro i hi
  refine Eq.trans ?_ (formatC_getLsbD op i).symm
  rw [BitVec.getLsbD_and, formatT_getLsbD]
  have hm : (0xF : BitVec 32).getLsbD i = decide (i < 4) := by
    interval_cases i <;> decide
  rw [hm]
  by_cases h4 : i < 4 <;> simp [h4]

theorem MatchesTable.nop : MatchesTable.Statement .nop := fun _ => rfl

theorem MatchesTable.encElro (p : BitVec 4) (st : Status) (m s : BitVec 8) : MatchesTable.Statement (.encElro p st m s) :=
  fun _ => formatE_masked 0 p st m s _ _ (by decide) (by decide)

theorem MatchesTable.encIt (p : BitVec 4) (st : Status) (m s : BitVec 8) : MatchesTable.Statement (.encIt p st m s) :=
  fun _ => formatE_masked 1 p st m s _ _ (by decide) (by decide)

theorem MatchesTable.encItPar (p : BitVec 4) (st : Status) (m s : BitVec 8) :
    MatchesTable.Statement (.encItPar p st m s) :=
  fun _ => formatE_masked 2 p st m s _ _ (by decide) (by decide)

theorem MatchesTable.encDario (p : BitVec 4) (st : Status) (m s : BitVec 8) :
    MatchesTable.Statement (.encDario p st m s) :=
  fun _ => formatE_masked 3 p st m s _ _ (by decide) (by decide)

theorem MatchesTable.encUndefLow (f p : BitVec 4) (st : Status) (m s : BitVec 8) :
    MatchesTable.Statement (.encUndefLow f p st m s) := by
  intro h
  have hf : ∀ f : BitVec 4, (decide (4 ≤ f.toNat ∧ f.toNat ≤ 7)) = true →
      ((0 : BitVec 24) ++ (f ++ (1 : BitVec 4))) &&& (0xCF : Word) = 0x41 := by decide
  exact formatE_masked f p st m s _ _ (by decide) (hf f h)

theorem MatchesTable.encUndefHigh (f p : BitVec 4) (st : Status) (m s : BitVec 8) :
    MatchesTable.Statement (.encUndefHigh f p st m s) := by
  intro h
  have hf : ∀ f : BitVec 4, (decide (8 ≤ f.toNat)) = true →
      ((0 : BitVec 24) ++ (f ++ (1 : BitVec 4))) &&& (0x8F : Word) = 0x81 := by decide
  exact formatE_masked f p st m s _ _ (by decide) (hf f h)

theorem MatchesTable.tx (p : BitVec 4) : MatchesTable.Statement (.tx p) := fun _ => formatT_masked 2 p 0

theorem MatchesTable.txr (p : BitVec 4) (n : BitVec 16) : MatchesTable.Statement (.txr p n) := fun _ => formatT_masked 3 p n

theorem MatchesTable.cancel : MatchesTable.Statement .cancel := fun _ => rfl

theorem MatchesTable.zero : MatchesTable.Statement .zero := fun _ => rfl

theorem MatchesTable.one : MatchesTable.Statement .one := fun _ => rfl

theorem MatchesTable.float : MatchesTable.Statement .float := fun _ => rfl

theorem MatchesTable.sync : MatchesTable.Statement .sync := fun _ => rfl

end Sys2Proof.Laws
end

