-- ==== Sys2Proof/Laws/Registers.lean ====
section
/-! SUPPORT. The codeword register: its slots after each way of writing it, and the packing of slots into words. -/

namespace Sys2Proof.Machine

theorem slot_of_lt (c : Codeword) {i : Nat} (h : i < 31) : c.slot i = c.sym[i] := by
  simp [Codeword.slot, h]

/-- Two codeword registers with the same length and slots are equal. -/
theorem codeword_ext {c d : Codeword} (hl : c.len = d.len) (hs : ∀ i, i < 31 → c.slot i = d.slot i) : c = d := by
  have hv : c.sym = d.sym := by
    apply Vector.ext
    intro i hi
    have := hs i hi
    rwa [slot_of_lt c hi, slot_of_lt d hi] at this
  cases c
  cases d
  simp_all

/-- The slots of a written codeword: its symbols' codes, then zeros (R131). -/
theorem codewordOf_slot (w : List Symbol) {i : Nat} (h : i < 31) :
    (codewordOf w).slot i = match w[i]? with | some x => symbolCode x | none => 0 := by
  rw [slot_of_lt _ h]
  simp [codewordOf] <;> rfl

theorem codewordOf_len (w : List Symbol) : (codewordOf w).len = BitVec.ofNat 5 w.length := rfl

@[simp] theorem writeLen_slot (c : Codeword) (v : Word) (i : Nat) : (c.writeLen v).slot i = c.slot i := rfl
@[simp] theorem writeLen_len (c : Codeword) (v : Word) : (c.writeLen v).len = v.extractLsb' 0 5 := rfl
@[simp] theorem writeLo_len (c : Codeword) (v : Word) : (c.writeLo v).len = c.len := by
  simp only [Codeword.writeLo]
@[simp] theorem writeHi_len (c : Codeword) (v : Word) : (c.writeHi v).len = c.len := by
  simp only [Codeword.writeHi]

/-- A write of CW_LO writes slots 0 to 15 (R62). -/
theorem writeLo_slot (c : Codeword) (v : Word) {i : Nat} (h : i < 31) :
    (c.writeLo v).slot i = if i < 16 then v.extractLsb' (2 * i) 2 else c.slot i := by
  rw [slot_of_lt _ h]
  simp [Codeword.writeLo]

/-- A write of CW_HI writes slots 16 to 30 (R62). -/
theorem writeHi_slot (c : Codeword) (v : Word) {i : Nat} (h : i < 31) :
    (c.writeHi v).slot i = if i < 16 then c.slot i else v.extractLsb' (2 * (i - 16)) 2 := by
  rw [slot_of_lt _ h]
  simp [Codeword.writeHi]

/-- Bit j of packed slots is a bit of slot j / 2 (R65). -/
theorem packSlots_getLsbD (n : Nat) (f : Nat → BitVec 2) (j : Nat) :
    (packSlots n f).getLsbD j = (decide (j < 2 * n) && (f (j / 2)).getLsbD (j % 2)) := by
  induction n generalizing f j with
  | zero => simp [packSlots]
  | succ n ih =>
    simp only [packSlots, BitVec.getLsbD_append, ih]
    by_cases hj : j < 2
    · have h0 : j / 2 = 0 := by omega
      have h1 : j % 2 = j := by omega
      have h2 : j < 2 * (n + 1) := by omega
      simp [hj, h0, h1, h2]
    · have h1 : (j - 2) / 2 + 1 = j / 2 := by omega
      have h2 : (j - 2) % 2 = j % 2 := by omega
      have h3 : (j - 2 < 2 * n) ↔ (j < 2 * (n + 1)) := by omega
      simp [hj, h1, h2, h3]

/-- Packing depends only on the slots it packs. -/
theorem packSlots_congr {n : Nat} {f g : Nat → BitVec 2} (h : ∀ i, i < n → f i = g i) : packSlots n f = packSlots n g := by
  apply BitVec.eq_of_getLsbD_eq
  intro j hj
  rw [packSlots_getLsbD, packSlots_getLsbD, h (j / 2) (by omega)]

/-- The codes held, one by one (R24). -/
theorem codes_length (c : Codeword) : c.codes.length = c.len.toNat := by simp [Codeword.codes]

/-- No slot below the length is reserved, exactly where every such slot is a symbol (R26). -/
theorem hasReserved_eq_false_iff (c : Codeword) :
    c.hasReserved = false ↔ ∀ i, i < c.len.toNat → ∃ x, symbolOfCode (c.slot i) = some x := by
  simp [Codeword.hasReserved, Codeword.codes, Option.ne_none_iff_exists']

theorem symbolOfCode_symbolCode (x : Symbol) : symbolOfCode (symbolCode x) = some x := by
  cases x <;> rfl

/-- The only reserved code is 3 (R93). -/
theorem symbolOfCode_eq_none_iff (c : BitVec 2) : symbolOfCode c = none ↔ c = 3 := by
  revert c
  decide

/-- A primitive select of a slot below the length decodes to the symbol's primitive (R111). -/
theorem decodePrim_select (c : BitVec 2) :
    decodePrim ((0 : BitVec 1) ++ c) =
      match symbolOfCode c with
      | some .zero => .ok .zero
      | some .one => .ok .one
      | some .float => .ok .float
      | none => .error .reservedSymbol := by
  revert c
  decide

/-- The fetch of the sequencer: the primitive of R188, or the reserved code. -/
theorem decodePrim_primSelect (s : State) :
    decodePrim (primSelect s) =
      match currentPrim s with
      | some (.sym .zero) => .ok .zero
      | some (.sym .one) => .ok .one
      | some (.sym .float) => .ok .float
      | some .sync => .ok .sync
      | none => .error .reservedSymbol := by
  unfold primSelect currentPrim
  split
  · rw [decodePrim_select]
    rcases symbolOfCode (s.shadow.cw.slot s.pos.i.toNat) with _ | x
    · rfl
    · cases x <;> rfl
  · rfl

end Sys2Proof.Machine
end

