-- ==== Sys2Proof/Laws/Step.lean ====
section
/-! SUPPORT. What a step can do: one inversion lemma per agent, and the step by whose turn it is. -/

namespace Sys2Proof.Machine

/-- A step is one turn of the agent whose turn it is. -/
theorem step_eq (s : State) : step s = turnStep exec (nextTurn s) (beginTurn s) := rfl

theorem step_host {s : State} (h : nextTurn s = .host) : step s = hostTurn exec (beginTurn s) := by
  rw [step_eq, h]; rfl

theorem step_seq {s : State} (h : nextTurn s = .seq) : step s = seqTurn exec (beginTurn s) := by
  rw [step_eq, h]; rfl

theorem step_line {s : State} (h : nextTurn s = .line) : step s = lineTurn (beginTurn s) := by
  rw [step_eq, h]; rfl

theorem step_cancelPin {s : State} {b : Bool} (h : nextTurn s = .cancelPin b) :
    step s = .next { beginTurn s with cancelI := b } := by
  rw [step_eq, h]; rfl

theorem step_rst {s : State} (h : nextTurn s = .rst) : step s = .next (resetHardware (beginTurn s)) := by
  rw [step_eq, h]; rfl

theorem step_clock {s : State} (h : nextTurn s = .clock) : step s = .next (clockTick (beginTurn s)) := by
  rw [step_eq, h]; rfl

/-- HOST's turn: nothing to do, a held write that waits or is taken, or the next item of the program (R61, R62, R183). -/
theorem hostTurn_cases (run : Run) (s : State) :
    (s.held = none ∧ s.hostProg = [] ∧ hostTurn run s = .next s) ∨
    (∃ i, s.held = some i ∧ s.seqState ≠ .idle ∧ hostTurn run s = .next s) ∨
    (∃ i, s.held = some i ∧ s.seqState = .idle ∧ hostTurn run s = run i { s with held := none }) ∨
    (∃ op rest, s.held = none ∧ s.hostProg = op :: rest ∧ hostTurn run s = hostOp run op { s with hostProg := rest }) := by
  unfold hostTurn
  cases hh : s.held with
  | none => cases hp : s.hostProg <;> simp
  | some i => by_cases hi : s.seqState = .idle <;> simp [hi]

/-- A write of CMD: the decoded instruction, or nothing for a reserved opcode (R106). -/
theorem hostCommand_cases (run : Run) (v : Word) (s : State) :
    (∃ i, decodeCommand v = .ok i ∧ hostCommand run v s = run i s) ∨
    (∃ e, decodeCommand v = .error e ∧ hostCommand run v s = .next s) := by
  unfold hostCommand
  cases decodeCommand v <;> simp

/-- The sequencer's turn by STATE (R199). -/
theorem seqTurn_cases (run : Run) (s : State) :
    (s.seqState = .idle ∧ seqTurn run s = .next s) ∨
    (s.seqState = .exporting ∧ seqTurn run s = .next (exportStep s)) ∨
    (∃ i, s.seqState = .framing ∧ decodePrim (primSelect s) = .ok i ∧ seqTurn run s = run i s) ∨
    (∃ e, s.seqState = .framing ∧ decodePrim (primSelect s) = .error e ∧ seqTurn run s = .fault .shadowSymbolReserved) ∨
    (s.seqState = .repeating ∧ seqTurn run s = .next (repeatStep s)) := by
  unfold seqTurn
  cases hs : s.seqState with
  | idle => simp
  | exporting => simp
  | framing => cases decodePrim (primSelect s) <;> simp
  | repeating => simp

/-- In Framing the sequencer runs the next event of the current primitive (R188). -/
theorem seqTurn_framing {s : State} {prim : Prim} (hs : s.seqState = .framing) (hp : currentPrim s = some prim) :
    seqTurn exec s = primStep prim s := by
  unfold seqTurn
  rw [hs]
  simp only [decodePrim_primSelect, hp]
  cases prim with
  | sym x => cases x <;> rfl
  | sync => rfl

/-- LINE's turn: no answer, or its next one (R200, R285). -/
theorem lineTurn_cases (s : State) :
    (s.answers = [] ∧ lineTurn s = .next s) ∨
    (∃ a rest, s.answers = a :: rest ∧ lineTurn s = lineAnswer a { s with answers := rest }) := by
  unfold lineTurn
  cases s.answers <;> simp

/-- What a HOST item other than a command leaves alone (R61, R62, R110). -/
theorem hostOp_read (run : Run) (k : BitVec 4) (s : State) : hostOp run (.read k) s = .next (hostRead k s) := rfl

theorem hostOp_write_cmd (run : Run) (v : Word) (s : State) : hostOp run (.write 0 v) s = hostCommand run v s := rfl

theorem hostOp_write_other (run : Run) {k : BitVec 4} (hk : k ≠ 0) (v : Word) (s : State) :
    hostOp run (.write k v) s = .next (hostWrite k v s) := by
  unfold hostOp
  exact if_neg hk

end Sys2Proof.Machine
end

