-- ==== Sys2Proof/Laws/Tables.lean ====
section
/-! SUPPORT. What a configuration of the encoder tables fixes, and that the default one is the printed tables. -/

namespace Sys2Proof.Machine

/-- The configured entries of `IT_TAB` stand at 2 to 14 (R137). -/
theorem itTabOf_open (t : EncTables) {k : Nat} (hk : k < 13) : (itTabOf t)[k + 2] = t.itOpen[k] := by
  have h1 : k + 2 ≠ 1 := by omega
  have h15 : k + 2 < 15 := by omega
  simp [itTabOf, h1, h15]

/-- The configured entries of `PAR_M` stand at 1 to 3 (R141). -/
theorem parMOf_open (t : EncTables) {k : Nat} (hk : k < 3) : (parMOf t)[k + 1] = t.parMOpen[k] := by
  simp [parMOf]

/-- With the default configuration `IT_TAB` is the printed table. -/
theorem itTabOf_default : itTabOf defaultTables = itTab := by decide

theorem parMOf_default : parMOf defaultTables = parM := by decide

theorem parSOf_default : parSOf defaultTables = parS := rfl

end Sys2Proof.Machine
end

