-- ==== Sys2Proof/Tests/Slice0.lean ====
section
/-! SUPPORT. Tests: WellFormed's check, decoding of written-out words, one or two facts per instruction on one step, with
expected values from spec/95_test_vectors.md (V1 to V39, P1 to P6) or worked out from the rules; and a witness for the
hypotheses of every statement. -/

namespace Sys2Proof.Tests

open Sys2Proof.Machine

/-! ## WellFormed refuses what no word encodes -/

theorem test_wellFormed_refuses_undefLow_family_3 : ¬WellFormed (.encUndefLow 3 1 .on 0 0) := by decide
theorem test_wellFormed_refuses_undefLow_family_8 : ¬WellFormed (.encUndefLow 8 1 .on 0 0) := by decide
theorem test_wellFormed_refuses_undefHigh_family_7 : ¬WellFormed (.encUndefHigh 7 1 .on 0 0) := by decide
theorem test_wellFormed_accepts_out_of_table_address : WellFormed (.encElro 0 .on 255 255) := by decide

/-! ## Decoding of written-out words (R100 to R103, R111; words of 95_test_vectors.md) -/

theorem test_decode_nop : decodeCommand 0x00000000 = .ok .nop := by decide
theorem test_decode_encElro : decodeCommand 0x1E101101 = .ok (.encElro 1 .on 16 30) := by decide
theorem test_decode_encIt : decodeCommand 0x100F0111 = .ok (.encIt 1 .off 15 16) := by decide
theorem test_decode_encItPar : decodeCommand 0x03031121 = .ok (.encItPar 1 .on 3 3) := by decide
theorem test_decode_encDario : decodeCommand 0x3F3F1331 = .ok (.encDario 3 .on 63 63) := by decide
theorem test_decode_encUndefLow : decodeCommand 0x63631071 = .ok (.encUndefLow 7 0 .on 99 99) := by decide
theorem test_decode_encUndefHigh : decodeCommand 0x000011F1 = .ok (.encUndefHigh 15 1 .on 0 0) := by decide
theorem test_decode_tx_ignores_repeat : decodeCommand 0x00030102 = .ok (.tx 1) := by decide
theorem test_decode_txr : decodeCommand 0x000A0103 = .ok (.txr 1 10) := by decide
theorem test_decode_cancel : decodeCommand 0xFFFFFFF4 = .ok .cancel := by decide
theorem test_decode_reserved_opcode : decodeCommand 0x00000005 = .error (.reservedOpcode 5) := by decide
theorem test_decode_primitives :
    [0b000, 0b001, 0b010, 0b111].map decodePrim = [.ok .zero, .ok .one, .ok .float, .ok .sync] := by decide
theorem test_decode_reserved_symbol : decodePrim 0b011 = .error .reservedSymbol := by decide
theorem test_decodeTableWord_row : decodeTableWord 8 0x31 = some (.encDario 0 .off 0 0) := by decide
theorem test_decodeTableWord_select : decodeTableWord 3 0b010 = some .float := by decide

/-! ## Tables and text -/

/-- R137: the three entries of the source, and the default filling of the others (log 17). -/
theorem test_itTab_counts_low_bit_first :
    ∀ k : Fin 16, ∀ j : Fin 4, itTab[k][j] = if k.val.testBit j.val then Symbol.float else .zero := by decide

theorem test_text_round_trip : (parseText ['0', 'F', '1']).map textOf = some ['0', 'F', '1'] := by decide
theorem test_text_refuses_lower_case : parseText ['f'] = none := by decide

/-- V1: the assembler's word of `enc.elro p=1, m="10000", s="11110", on`. -/
theorem test_assemble_elro :
    (parseLine ['e', 'n', 'c', '.', 'e', 'l', 'r', 'o', ' ', 'p', '=', '1', ',', ' ', 'm', '=', '"', '1', '0', '0', '0', '0', '"', ',',
      ' ', 's', '=', '"', '1', '1', '1', '1', '0', '"', ',', ' ', 'o', 'n']).bind assemble = some 0x1E101101 := by decide

/-! ## One step -/

/-- A fact about the next state. -/
def nextHas (o : Host.Outcome State Fault Refusal) (f : State → Bool) : Bool :=
  match o with
  | .next t => f t
  | .fault _ => false
  | .refused _ => false

/-- The machine after reset, about to run the command word w, with a codeword in CW. -/
def withCommand (w : Word) (cw : List Symbol) : State :=
  State.withFetchWord { State.reset with cw := codewordOf cw } 32 w.toNat

/-- A transmission in flight: the codeword `1` under protocol 3, three frames, in Framing at the given phase. -/
def inFrame (i : BitVec 5) (ph : BitVec 2) (sub : Sub) (w : BitVec 32) : State :=
  { State.reset with
    seqState := .framing, exported := true, shadow := { cw := codewordOf [.one], proto := 3, rep := 3 }
    pos := { r := 0, i := i, ph := ph, sub := sub }, wrcnt := w, turns := [.seq] }

/-- The same with the request outstanding and LINE's answer at hand. -/
def asking (i : BitVec 5) (ph : BitVec 2) (w : BitVec 32) (a : List Answer) : State :=
  { inFrame i ph .write w with slReq := true, slVal := levelOf ph, answers := a, turns := [.line] }

/-- A transmission just accepted. -/
def accepted (n : BitVec 16) : State :=
  { State.reset with seqState := .exporting, shadow := { cw := codewordOf [.one], proto := 3, rep := n }, turns := [.seq] }

/-- V1. -/
theorem test_encElro_V1 :
    nextHas (step (withCommand 0x1E101101 [])) (fun t => readReg 2 t = 0x008802A8 && readReg 1 t = 12 && readReg 4 t = 8) = true := by
  decide

/-- V8a: the master is reported first, CW unchanged. -/
theorem test_encElro_V8a :
    nextHas (step (withCommand 0x20201101 [.one])) (fun t => readReg 4 t = 0x00200308 && readReg 2 t = 1) = true := by decide

/-- V10. -/
theorem test_encIt_V10 : nextHas (step (withCommand 0x02011111 [])) (fun t => readReg 2 t = 0x00A80202) = true := by decide

/-- V14: slave 0 is outside. -/
theorem test_encIt_V14 : nextHas (step (withCommand 0x00001111 [])) (fun t => readReg 4 t = 0x00001308) = true := by decide

/-- V16. -/
theorem test_encItPar_V16 : nextHas (step (withCommand 0x01000121 [])) (fun t => readReg 2 t = 0x000AA9A9) = true := by decide

/-- V18b: slave 4 is outside. -/
theorem test_encItPar_V18b : nextHas (step (withCommand 0x04001121 [])) (fun t => readReg 4 t = 0x00041308) = true := by decide

/-- V20: the symbols 0 to 12. -/
theorem test_encDario_V20 :
    nextHas (step (withCommand 0x01200131 [])) 
      (fun t => (List.range 13).map t.cw.slot = [0, 0, 2, 2, 2, 2, 2, 2, 2, 2, 2, 2, 0] && readReg 1 t = 21) = true := by decide

/-- V22a. -/
theorem test_encDario_V22a : nextHas (step (withCommand 0x40000131 [])) (fun t => readReg 4 t = 0x00401308) = true := by decide

/-- V26: the protocol is tested first. -/
theorem test_encUndefLow_V26 : nextHas (step (withCommand 0x63631071 [])) (fun t => readReg 4 t = 0x00000208) = true := by decide

/-- V25a. -/
theorem test_encUndefHigh_V25a : nextHas (step (withCommand 0x000011F1 [])) (fun t => readReg 4 t = 0x000F0108) = true := by decide

/-- R180. -/
theorem test_nop_changes_no_register :
    nextHas (step (withCommand 0 [.one])) (fun t => readReg 2 t = 1 && readReg 4 t = 0 && readReg 5 t = 0) = true := by decide

/-- R106. -/
theorem test_reserved_opcode_ignored :
    nextHas (step (withCommand 0x7 [.one])) (fun t => readReg 2 t = 1 && readReg 5 t = 0 && t.hostProg.isEmpty) = true := by decide

/-- R182. -/
theorem test_tx_takes_the_shadow :
    nextHas (step (withCommand 0x00030102 [.one])) (fun t => t.shadow.rep = 10 && t.shadow.cw = codewordOf [.one] && readReg 5 t = 5) =
      true := by decide

/-- V36. -/
theorem test_tx_V36 : nextHas (step (withCommand 0x00000402 [])) (fun t => readReg 5 t = 0x00040208) = true := by decide

/-- R185. -/
theorem test_txr_takes_its_count :
    nextHas (step (withCommand 0x00030303 [.one])) (fun t => t.shadow.rep = 3 && t.shadow.proto = 3) = true := by decide

/-- R183. -/
theorem test_txr_is_held :
    nextHas (exec (.txr 3 3) (inFrame 0 0 .write 0)) (fun t => !t.regReady && readReg 5 t = readReg 5 (inFrame 0 0 .write 0)) = true := by
  decide

/-- V39: dropped while Idle. -/
theorem test_cancel_dropped_when_idle : nextHas (step (withCommand 4 [])) (fun t => t.cancelPend = false) = true := by decide

/-- R184. -/
theorem test_cancel_latched_when_busy :
    nextHas (exec .cancel (inFrame 0 0 .wait 1)) (fun t => readReg 5 t = 0x56) = true := by decide

/-- R161: the first space of ZERO is 3 units. -/
theorem test_zero_second_phase :
    nextHas (exec .zero (inFrame 0 1 .wait 2)) (fun t => t.trace = [.wait 3 3] && t.pos.ph = 2) = true := by decide

/-- R189: the request is counted when issued. -/
theorem test_zero_request :
    nextHas (exec .zero (inFrame 0 1 .write 1)) (fun t => t.wrcnt = 2 && t.slReq && t.slVal = .low) = true := by decide

/-- R162: the last space of ONE is 1 unit, and Sync comes next. -/
theorem test_one_last_phase :
    nextHas (step (inFrame 0 3 .wait 4)) (fun t => t.trace = [.wait 1 3] && readReg 7 t = 0x00010000) = true := by decide

/-- R163: the second mark of FLOAT is 3 units. -/
theorem test_float_third_phase :
    nextHas (exec .float (inFrame 0 2 .wait 3)) (fun t => t.trace = [.wait 3 3] && t.pos.ph = 3) = true := by decide

/-- R164, R192: the Sync space of protocol 3 is 71 units, and the frame is complete. -/
theorem test_sync_space :
    nextHas (step (inFrame 1 1 .wait 6)) (fun t => t.trace = [.wait 71 3] && t.seqState = .repeating && readReg 7 t = 0x00A10000) = true := by
  decide

/-- V38a: a cancel in the first wait leaves the line high and emits nothing. -/
theorem test_cancel_in_wait :
    nextHas (step { inFrame 0 0 .wait 1 with cancelPend := true, line := .high })
      (fun t => readReg 5 t = 0x00000538 && readReg 7 t = 0x00800000 && t.trace.isEmpty) = true := by decide

/-- V37: the answer Error at R=1, I=0, PH=2. -/
theorem test_line_error_V37 :
    nextHas (step { asking 0 2 9 [.error] with pos := { r := 1, i := 0, ph := 2, sub := .write } })
      (fun t => readReg 5 t = 0x00000418 && readReg 7 t = 0x00400001 && readReg 6 t = 9) = true := by decide

/-- R189: the answer Ok. -/
theorem test_line_ok :
    nextHas (step (asking 0 0 1 [.ok])) (fun t => t.line = .high && t.pos.sub = .wait && !t.slReq && t.pin = some .high) = true := by
  decide

/-- V33: no frame, but the export. -/
theorem test_export_of_no_frame :
    nextHas (step (accepted 0)) (fun t => readReg 5 t = 0x00000018 && t.trace = [.exported] && readReg 7 t = 0) = true := by decide

/-- U15: the pin's level is any value once line_en rises, and stays what it is where line_en is 1 already. -/
theorem test_export_forgets_the_pin_once :
    nextHas (step { accepted 1 with pin := some .high }) (fun t => t.exported && t.pin = none) = true ∧
    nextHas (step { accepted 1 with pin := some .high, exported := true }) (fun t => t.exported && t.pin = some .high) = true := by
  decide

/-- R194: the last frame. -/
theorem test_repeating_last :
    nextHas (step { inFrame 1 1 .wait 18 with seqState := .repeating, pos := { r := 2, i := 1, ph := 1, sub := .wait } })
      (fun t => readReg 5 t = 0x18 && readReg 7 t = 0x00A10003) = true := by decide

/-- R270. -/
theorem test_reset_input :
    nextHas (step { asking 0 0 1 [.ok] with turns := [.rst], held := some (.tx 1) })
      (fun t => readReg 5 t = 0 && !t.slReq && t.regReady && t.wrcnt = 0) = true := by decide

/-- A primitive placed after reset runs at the next step. -/
theorem test_withFetchWord_primitive :
    nextHas (step (State.withFetchWord State.reset 3 0b001)) (fun t => t.slReq && t.wrcnt = 1) = true := by decide

/-! ## Witnesses: each theorem meets the hypotheses of the statement it is named after, at the edges of its clauses -/

/-- HOST about to perform one item of its program. -/
def hosting (op : HostOp) (s : State) : State := { s with turns := [.host], hostProg := [op] }

/-- The machine after reset with the turn t to come. -/
def turnOf (t : Turn) : State := { State.reset with turns := [t] }

/-- A transmission in a wait at the level LINE shows, one write issued. -/
def waiting : State := { inFrame 0 0 .wait 1 with line := .high }

/-- A transmission between its frames. -/
def between (r : BitVec 16) (n : BitVec 32) : State :=
  { inFrame 1 1 .wait n with seqState := .repeating, pos := { r := r, i := 1, ph := 1, sub := .wait } }

/-- Idle, with the reserved code in slot 0 of CW. -/
def reservedInCw : State := { State.reset with cw := { len := 1, sym := Vector.replicate 31 3 } }

theorem reset_coherent_fields : Coherent State.reset :=
  ⟨by decide, by decide, by decide, by decide, by decide, by decide, by decide, by decide⟩

theorem waiting_coherent_fields : Coherent waiting :=
  ⟨by decide, by decide, by decide, by decide, by decide, by decide, by decide, by decide⟩

theorem asking_coherent_fields : Coherent (asking 0 0 1 [.error]) :=
  ⟨by decide, by decide, by decide, by decide, by decide, by decide, by decide, by decide⟩

theorem between_coherent_fields : Coherent (between 0 6) :=
  ⟨by decide, by decide, by decide, by decide, by decide, by decide, by decide, by decide⟩

theorem wit_ResetGivesEveryStateItsResetValue : 0 < 31 ∧ 30 < 31 := by decide

theorem wit_ResetInputRestoresResetValues : nextTurn { asking 0 0 1 [.ok] with turns := [.rst], held := some (.tx 1) } = .rst := by decide

theorem wit_ExportedFallsOnlyByReset :
    ∃ t, step { waiting with turns := [.rst] } = .next t ∧ waiting.exported = true ∧ t.exported = false :=
  ⟨_, rfl, by decide, by decide⟩

theorem wit_IdleMachineDoesNothing :
    State.reset.seqState = .idle ∧ State.reset.hostProg = [] ∧ State.reset.held = none ∧ nextTurn State.reset = .host ∧
    nextTurn (turnOf .seq) = .seq ∧ nextTurn (turnOf .clock) = .clock := by decide

theorem wit_StepKeepsCoherence :
    Coherent waiting ∧ Coherent (between 0 6) ∧ (∃ t, step waiting = .next t) ∧ ∃ t, step (between 0 6) = .next t :=
  ⟨waiting_coherent_fields, between_coherent_fields, ⟨_, rfl⟩, ⟨_, rfl⟩⟩

theorem wit_CoherentStepNeverFaults :
    Coherent (hosting (.write 0 0x102) reservedInCw) ∧ ∃ r, step (hosting (.write 0 0x102) reservedInCw) = .refused r :=
  ⟨⟨by decide, by decide, by decide, by decide, by decide, by decide, by decide, by decide⟩, ⟨_, rfl⟩⟩

theorem wit_ShadowFixedWhileBusy : waiting.seqState ≠ .idle ∧ nextTurn waiting ≠ .rst ∧ ∃ t, step waiting = .next t :=
  ⟨by decide, by decide, _, rfl⟩

theorem wit_CodewordAndEncoderStatusAreTheHosts :
    nextTurn waiting ≠ .host ∧ nextTurn waiting ≠ .rst ∧ ∃ t, step waiting = .next t := ⟨by decide, by decide, _, rfl⟩

theorem wit_WriteCountCountsRequests :
    (∃ t, step waiting = .next t) ∧ (∃ t, step (inFrame 0 1 .write 1) = .next t ∧ t.wrcnt = 2) ∧
    (∃ t, step { waiting with turns := [.rst] } = .next t ∧ t.wrcnt = 0) ∧
    ∃ t, step { hosting (.write 0 0x102) State.reset with wrcnt := 7 } = .next t ∧ t.wrcnt = 0 :=
  ⟨⟨_, rfl⟩, ⟨_, rfl, by decide⟩, ⟨_, rfl, by decide⟩, ⟨_, rfl, by decide⟩⟩

theorem wit_LineRegisterFollowsOkAnswers : ∃ t, step (asking 0 0 1 [.ok]) = .next t ∧ t.line ≠ (asking 0 0 1 [.ok]).line :=
  ⟨_, rfl, by decide⟩

theorem wit_WritesAtAnEarlyEndMatchThePosition_failed :
    Coherent (asking 0 0 1 [.error]) ∧ (asking 0 0 1 [.error]).seqState = .framing ∧ nextTurn (asking 0 0 1 [.error]) ≠ .rst ∧
    ∃ t, step (asking 0 0 1 [.error]) = .next t ∧ t.seqState = .idle ∧ t.txStat.err = .lineWriteFailed :=
  ⟨asking_coherent_fields, by decide, by decide, _, rfl, by decide⟩

theorem wit_WritesAtAnEarlyEndMatchThePosition_cancelled :
    Coherent { waiting with cancelPend := true } ∧ nextTurn { waiting with cancelPend := true } ≠ .rst ∧
    ∃ t, step { waiting with cancelPend := true } = .next t ∧ t.seqState = .idle ∧ t.txStat.err = .cancelled :=
  ⟨⟨by decide, by decide, by decide, by decide, by decide, by decide, by decide, by decide⟩, by decide, _, rfl, by decide⟩

theorem wit_WritesAtAnEarlyEndMatchThePosition_between :
    Coherent (between 2 18) ∧ Coherent { between 0 6 with cancelPend := true } ∧ nextTurn (between 2 18) ≠ .rst ∧
    nextTurn { between 0 6 with cancelPend := true } ≠ .rst ∧
    (∃ t, step (between 2 18) = .next t ∧ t.seqState = .idle ∧ t.txStat.err = .ok) ∧
    ∃ t, step { between 0 6 with cancelPend := true } = .next t ∧ t.seqState = .idle ∧ t.txStat.err = .cancelled ∧ t.wrcnt = 6 :=
  ⟨⟨by decide, by decide, by decide, by decide, by decide, by decide, by decide, by decide⟩,
    ⟨by decide, by decide, by decide, by decide, by decide, by decide, by decide, by decide⟩, by decide, by decide,
    ⟨_, rfl, by decide⟩, ⟨_, rfl, by decide⟩⟩

theorem wit_WritesAtAnEarlyEndMatchThePosition_exporting :
    Coherent (accepted 0) ∧ Coherent { accepted 1 with cancelPend := true } ∧ nextTurn (accepted 0) ≠ .rst ∧
    nextTurn { accepted 1 with cancelPend := true } ≠ .rst ∧
    (∃ t, step (accepted 0) = .next t ∧ t.seqState = .idle ∧ t.txStat.err = .ok) ∧
    ∃ t, step { accepted 1 with cancelPend := true } = .next t ∧ t.seqState = .idle ∧ t.txStat.err = .cancelled :=
  ⟨⟨by decide, by decide, by decide, by decide, by decide, by decide, by decide, by decide⟩,
    ⟨by decide, by decide, by decide, by decide, by decide, by decide, by decide, by decide⟩, by decide, by decide,
    ⟨_, rfl, by decide⟩, ⟨_, rfl, by decide⟩⟩

theorem wit_RequestStaysUntilAnswered :
    Coherent (asking 0 0 1 []) ∧ (asking 0 0 1 []).slReq = true ∧ nextTurn (asking 0 0 1 []) ≠ .rst ∧
    (nextTurn (asking 0 0 1 []) = .line → (asking 0 0 1 []).answers = []) ∧ ∃ t, step (asking 0 0 1 []) = .next t :=
  ⟨⟨by decide, by decide, by decide, by decide, by decide, by decide, by decide, by decide⟩, by decide, by decide, by decide, _, rfl⟩

theorem wit_DecodeOfEncodeIsTheInstruction :
    WellFormed (.encUndefLow 4 0 .on 255 0) ∧ WellFormed (.encUndefLow 7 15 .off 0 255) ∧ WellFormed (.encUndefHigh 8 1 .on 1 1) ∧
    WellFormed (.encUndefHigh 15 1 .on 1 1) ∧ WellFormed (.txr 15 0xFFFF) ∧ WellFormed .sync := by decide

theorem wit_EncodeOfDecodeDiffersInReservedBitsOnly :
    decodeCommand 0xFFFFFF31 = .ok (.encDario 15 .on 255 255) ∧ decodeCommand 0xFFFFFFF4 = .ok .cancel := by decide

theorem wit_ReservedBitsAreIgnored :
    (0x0000E001 : Word) &&& ~~~reservedMask 1 = 0x00000001 &&& ~~~reservedMask 1 ∧
    (0xFFFFF1F2 : Word) &&& ~~~reservedMask 2 = 0x00000102 &&& ~~~reservedMask 2 := by decide

theorem wit_ReservedOpcodesAreIgnored :
    nextTurn (hosting (.write 0 5) waiting) = .host ∧ (hosting (.write 0 5) waiting).held = none ∧
    (hosting (.write 0 5) waiting).hostProg = .write 0 5 :: [] ∧ 5 ≤ ((5 : Word).extractLsb' 0 4).toNat ∧
    (hosting (.write 0 15) waiting).hostProg = .write 0 15 :: [] ∧ 5 ≤ ((15 : Word).extractLsb' 0 4).toNat := by decide

theorem wit_WordsDecodeAsTheSpecWritesThem : 4 ≤ (0b100 : BitVec 3).toNat ∧ 4 ≤ (0b111 : BitVec 3).toNat := by decide

theorem wit_TransmitterRowsDecode :
    (0xFFFFF0F2 : Word) &&& 0xF = 0x2 ∧ (0xFFFF01F3 : Word) &&& 0xF = 0x3 ∧ (0x4 : Word) &&& 0xF = 0x4 ∧
    5 ≤ ((0x5 : Word) &&& 0xF).toNat ∧ 5 ≤ ((0xF : Word) &&& 0xF).toNat := by decide

theorem wit_TextFormRoundTrips :
    parseText ['0', 'F', '1'] = some [.zero, .float, .one] ∧ parseText [] = some [] ∧ 'f' ≠ '0' ∧ 'f' ≠ '1' ∧ 'f' ≠ 'F' := by decide

theorem wit_AssembledLineDecodesToItsInstruction :
    assemble (.enc .elro 1 (.bits [true, false, false, false, false]) (.num 30) .on) = some 0x1E101101 ∧
    assemble (.encFam 15 1 (.num 0) (.num 0) .on) = some 0x000011F1 ∧ assemble (.txr 15 3) = some 0x00030F03 := by decide

/-- The edges of the operand clauses: strings of 5 and 6 characters, letters A, D, E, P and their neighbours, 255 and 256. -/
theorem wit_AssembledLineDecodesToItsInstruction_operands :
    masterField (some .elro) (.bits [true, false, false, false, false]) = some 16 ∧
    slaveField (some .elro) (.bits [true, true, true, true, false]) = some 30 ∧
    masterField (some .dario) (.bits [true, false, false, false, false, false]) = some 32 ∧
    masterField (some .dario) (.bits [true, false, false, false, false]) = none ∧
    masterField (some .it) (.letter 'A') = some 0 ∧ masterField (some .it) (.letter 'P') = some 15 ∧
    masterField (some .itPar) (.letter 'D') = some 3 ∧ masterField (some .itPar) (.letter 'E') = none ∧
    '@'.toNat < 65 ∧ 80 < 'Q'.toNat ∧ masterField (some .it) (.letter 'Q') = none ∧
    masterField none (.num 255) = some 255 ∧ masterField none (.num 256) = none ∧
    lineInstr (.encFam 4 15 (.num 0) (.num 0) .on) = some (.encUndefLow 4 15 .on 0 0) ∧
    lineInstr (.encFam 8 1 (.num 0) (.num 0) .on) = some (.encUndefHigh 8 1 .on 0 0) ∧
    lineInstr (.encFam 3 1 (.num 0) (.num 0) .on) = none ∧ lineInstr (.tx 15) = some (.tx 15) ∧ lineInstr (.tx 16) = none := by
  decide

theorem wit_HostStepRunsTheDecodedCommand :
    nextTurn (hosting (.write 0 0x103) State.reset) = .host ∧ (hosting (.write 0 0x103) State.reset).held = none ∧
    (hosting (.write 0 0x103) State.reset).hostProg = .write 0 0x103 :: [] ∧ decodeCommand 0x103 = .ok (.txr 1 0) := by decide

theorem wit_HostStepRunsTheDecodedCommand_held :
    nextTurn { turnOf .host with held := some (.tx 1) } = .host ∧ (turnOf .host).seqState = .idle := by decide

theorem wit_SequencerStepRunsTheFetchedPrimitive :
    nextTurn waiting = .seq ∧ waiting.seqState = .framing ∧ decodePrim (primSelect waiting) = .ok .one ∧
    decodePrim (primSelect (inFrame 1 0 .write 4)) = .ok .sync := by decide

theorem wit_EncElroStoresItsCodewordOrRaises :
    (0x20201F01 : Word) &&& 0xFF = 0x01 ∧ Supported 1 ∧ Supported 3 ∧ ¬Supported 0 ∧ ¬Supported 4 ∧
    (31 : BitVec 8).toNat ≤ 31 ∧ 31 < (32 : BitVec 8).toNat := by decide

theorem wit_EncItStoresItsCodewordOrRaises :
    (0x11FFFF11 : Word) &&& 0xFF = 0x11 ∧ Supported 2 ∧ ¬Supported 15 ∧
    ((0 : BitVec 8).toNat < 16 ∧ (1 : BitVec 8).toNat - 1 < 16 ∧ 1 ≤ (1 : BitVec 8).toNat) ∧
    ((15 : BitVec 8).toNat < 16 ∧ (16 : BitVec 8).toNat - 1 < 16 ∧ 1 ≤ (16 : BitVec 8).toNat) ∧
    15 < (16 : BitVec 8).toNat ∧ (0 : BitVec 8).toNat = 0 ∧ 16 < (17 : BitVec 8).toNat := by decide

theorem wit_EncItParStoresItsCodewordOrRaises :
    (0x04031F21 : Word) &&& 0xFF = 0x21 ∧ Supported 1 ∧ ¬Supported 0 ∧
    ((0 : BitVec 8).toNat < 4 ∧ (1 : BitVec 8).toNat - 1 < 3 ∧ 1 ≤ (1 : BitVec 8).toNat) ∧
    ((3 : BitVec 8).toNat < 4 ∧ (3 : BitVec 8).toNat - 1 < 3 ∧ 1 ≤ (3 : BitVec 8).toNat) ∧
    3 < (4 : BitVec 8).toNat ∧ (0 : BitVec 8).toNat = 0 ∧ 3 < (4 : BitVec 8).toNat := by decide

theorem wit_EncDarioStoresItsCodewordOrRaises :
    (0xFF3F0031 : Word) &&& 0xFF = 0x31 ∧ Supported 3 ∧ ¬Supported 4 ∧ (63 : BitVec 8).toNat ≤ 63 ∧ 63 < (64 : BitVec 8).toNat := by
  decide

theorem wit_EncUndefRaisesUnsupportedVendor :
    (0x00001141 : Word) &&& 0xCF = 0x41 ∧ (0x00001171 : Word) &&& 0xCF = 0x41 ∧ (0x00001181 : Word) &&& 0x8F = 0x81 ∧
    (0x000011F1 : Word) &&& 0x8F = 0x81 ∧ Supported 1 ∧ ¬Supported 0 := by decide

theorem wit_EncodingDependsOnTheCommandAlone_step :
    (∃ t, step waiting = .next t) ∧ waiting.tables = (withCommand 0 [.one]).tables ∧ waiting.cw ≠ (withCommand 0 [.one]).cw :=
  ⟨⟨_, rfl⟩, rfl, by decide⟩

theorem wit_EncodingDependsOnTheCommandAlone :
    isEncode (.encElro 1 .on 31 31) = true ∧ isEncode (.encUndefHigh 15 0 .on 0 0) = true := by decide

/-- A configuration other than the default: every open entry is FFFF or FFF. -/
def otherTables : EncTables :=
  { itOpen := Vector.replicate 13 (Vector.replicate 4 .float), parMOpen := Vector.replicate 3 (Vector.replicate 4 .float)
    parSOpen := Vector.replicate 3 (Vector.replicate 3 .float) }

/-- The configured entry is sent, the source's entries stay (R137): master C, slave 1. -/
theorem test_encIt_other_table :
    nextHas (exec (.encIt 1 .on 2 1) { State.reset with tables := otherTables })
      (fun t => (List.range 8).map t.cw.slot = [2, 2, 2, 2, 0, 0, 0, 0]) = true := by decide

/-- A configured PAR_S entry is sent, PAR_M[0] stays (R141). -/
theorem test_encItPar_other_table :
    nextHas (exec (.encItPar 1 .on 0 1) { State.reset with tables := otherTables })
      (fun t => (List.range 7).map t.cw.slot = [1, 2, 2, 2, 2, 2, 2]) = true := by decide

theorem wit_EncoderAlphabets_configurations : AlphabetKept otherTables ∧ otherTables ≠ defaultTables := by decide

theorem wit_EncoderAlphabets :
    ((0 : BitVec 8).toNat ≤ 3 ∧ 1 ≤ (1 : BitVec 8).toNat ∧ (1 : BitVec 8).toNat ≤ 3) ∧ (3 : BitVec 8).toNat ≤ 3 ∧
    1 ≤ (3 : BitVec 8).toNat := by decide

theorem wit_EncodeFrame :
    isEncode (.encIt 1 .on 16 1) = true ∧ ∃ t, exec (.encIt 1 .on 16 1) waiting = .next t ∧ t.encStat.err ≠ .ok :=
  ⟨by decide, _, rfl, by decide⟩

theorem wit_HostReadHasNoSideEffect :
    nextTurn (hosting (.read 15) waiting) = .host ∧ (hosting (.read 15) waiting).held = none ∧
    (hosting (.read 15) waiting).hostProg = .read 15 :: [] := by decide

theorem wit_RegisterWritesReadBack : (7 : BitVec 4) ≠ 3 ∧ 4 ≤ (4 : BitVec 4).toNat ∧ 4 ≤ (15 : BitVec 4).toNat := by decide

theorem wit_HostWriteOfRegisterIsPerformed : ∀ k ∈ ([1, 2, 3, 4, 15] : List (BitVec 4)),
    nextTurn (hosting (.write k 0xFFFFFFFF) waiting) = .host ∧ (hosting (.write k 0xFFFFFFFF) waiting).held = none ∧
    (hosting (.write k 0xFFFFFFFF) waiting).hostProg = .write k 0xFFFFFFFF :: [] ∧ k ≠ 0 := by decide

theorem wit_SymbolsStandInPackedOrder : 15 < 16 ∧ 16 ≤ 16 ∧ 16 ≤ 30 ∧ 30 < 31 := by decide

theorem wit_StatusWordsHoldTheirFields : 8 ≤ (8 : BitVec 4).toNat ∧ 8 ≤ (15 : BitVec 4).toNat := by decide

theorem wit_LoadedCodewordIsHeld : ([] : List Symbol).length ≤ 31 ∧ (List.replicate 31 Symbol.float).length ≤ 31 := by decide

theorem wit_SendTransmitsOnlyAfterSuccess :
    ∀ s ∈ [State.reset, { State.reset with encStat := { done := true, err := .unsupportedAddress, which := true, val := 32 } }],
    nextTurn (hosting (.ifEncOk 2) s) = .host ∧ (hosting (.ifEncOk 2) s).held = none ∧
    (hosting (.ifEncOk 2) s).hostProg = .ifEncOk 2 :: [] := by decide

theorem wit_SendTransmitsOnlyAfterSuccess_wait : ∀ s ∈ [State.reset, waiting],
    nextTurn (hosting .waitTx s) = .host ∧ (hosting .waitTx s).held = none ∧ (hosting .waitTx s).hostProg = .waitTx :: [] := by decide

theorem wit_SendTransmitsOnlyAfterSuccess_send :
    sendOps .it 1 (.letter 'A') (.num 1) .on = some [.write 0 0x01001111, .ifEncOk 2, .write 0 0x00000102, .waitTx] := by decide

theorem wit_NopHasNoEffect : (0xFFFFFFF0 : Word) &&& 0xF = 0x0 := by decide

theorem wit_TransmitIsAcceptedOrRejected :
    State.reset.seqState = .idle ∧ (Supported 1 ∧ Supported 3) ∧ (¬Supported 0 ∧ ¬Supported 4) ∧ CwIsCodeword State.reset ∧
    CwIsCodeword { State.reset with cw := codewordOf (List.replicate 31 .float) } := by decide

theorem wit_TransmitIsHeldWhileBusy :
    waiting.seqState ≠ .idle ∧ nextTurn { waiting with turns := [.host], held := some (.tx 1) } = .host := by decide

theorem wit_TransmitOfReservedCodeIsRefused :
    reservedInCw.seqState = .idle ∧ Supported 2 ∧ 0 < reservedInCw.cw.len.toNat ∧ reservedInCw.cw.slot 0 = 3 ∧
    30 < ({ len := 31, sym := Vector.replicate 31 3 } : Codeword).len.toNat ∧
    ({ len := 31, sym := Vector.replicate 31 3 } : Codeword).slot 30 = 3 := by decide

theorem wit_CancelIsLatchedOnlyWhileBusy :
    waiting.seqState ≠ .idle ∧ State.reset.seqState = .idle ∧ { accepted 1 with cancelI := true }.cancelI = true ∧
    (accepted 1).seqState = .exporting ∧ nextTurn { accepted 1 with cancelI := true } = .seq := by decide

theorem wit_TransmitterCommandFrame :
    isCommand (.tx 1) = true ∧ isEncode (.tx 1) = false ∧
    ∃ t, exec (.tx 1) { State.reset with cw := codewordOf [.one] } = .next t ∧ t.shadow ≠ State.reset.shadow :=
  ⟨by decide, by decide, _, rfl, by decide⟩

theorem wit_ExportingStep :
    nextTurn (accepted 0) = .seq ∧ (accepted 0).seqState = .exporting ∧ (beginTurn (accepted 0)).cancelPend = false ∧
    (accepted 0).shadow.rep = 0 ∧ (accepted 1).shadow.rep ≠ 0 ∧ (beginTurn { accepted 1 with cancelPend := true }).cancelPend = true := by
  decide

theorem wit_RepeatingStep :
    nextTurn (between 1 12) = .seq ∧ (between 1 12).seqState = .repeating ∧ (beginTurn (between 1 12)).cancelPend = false ∧
    (between 1 12).pos.r + 1 < (between 1 12).shadow.rep ∧ ¬(between 2 18).pos.r + 1 < (between 2 18).shadow.rep ∧
    (beginTurn { between 1 12 with cancelPend := true }).cancelPend = true := by decide

theorem wit_PrimitiveIssuesItsRequest :
    (inFrame 1 1 .write 5).pos.sub = .write ∧ (inFrame 1 1 .write 5).slReq = false ∧ (inFrame 1 1 .write 5).cancelPend = false ∧
    (inFrame 1 1 .write 5).pos.ph ≤ 1 := by decide

theorem wit_SymbolWaitEndsAndAdvances :
    (inFrame 0 3 .wait 4).pos.sub = .wait ∧ (inFrame 0 3 .wait 4).cancelPend = false ∧
    (inFrame 0 3 .wait 4).pos.i < (inFrame 0 3 .wait 4).shadow.cw.len := by decide

theorem wit_SyncWaitEndsAndAdvances :
    (inFrame 1 1 .wait 6).pos.sub = .wait ∧ (inFrame 1 1 .wait 6).cancelPend = false ∧ Supported (inFrame 1 1 .wait 6).shadow.proto ∧
    (inFrame 1 0 .wait 5).pos.ph = 0 ∧ (inFrame 1 1 .wait 6).pos.ph = 1 ∧
    (inFrame 1 1 .wait 6).pos.i = (inFrame 1 1 .wait 6).shadow.cw.len := by decide

theorem wit_AnswerOkBeginsTheWait :
    nextTurn { asking 0 0 1 [.ok] with shadow := { cw := codewordOf [.one], proto := 1, rep := 3 } } = .line ∧
    (asking 0 0 1 [.ok]).slReq = true ∧ (asking 0 0 1 [.ok]).answers = .ok :: [] ∧
    currentPrim (asking 0 0 1 [.ok]) = some (.sym .one) ∧
    protocolRow 1 = some { unitUs := 350, syncRatio := 31, defaultRepeat := 10 } ∧ unitsOf (.sym .one) 1 0 = .ok 3 ∧
    ¬Supported 0 ∧ ¬Supported 4 :=
  ⟨rfl, rfl, rfl, rfl, rfl, rfl, by decide, by decide⟩

theorem wit_AnswerErrorEndsTheTransmission :
    nextTurn (asking 1 1 6 [.error]) = .line ∧ (asking 1 1 6 [.error]).slReq = true ∧ (asking 1 1 6 [.error]).answers = .error :: [] := by
  decide

theorem wit_RequestAndAnswerGoTogether_ignored :
    nextTurn { waiting with turns := [.line], answers := [.ok] } = .line ∧ waiting.slReq = false := by decide

theorem wit_RequestAndAnswerGoTogether_unanswered :
    nextTurn { asking 1 0 5 [] with turns := [.seq] } = .seq ∧ (asking 1 0 5 []).seqState = .framing ∧
    (asking 1 0 5 []).pos.sub = .write ∧ (asking 1 0 5 []).slReq = true ∧ ShadowValid (asking 1 0 5 []) ∧
    (asking 1 0 5 []).pos.i ≤ (asking 1 0 5 []).shadow.cw.len ∧ nextTurn (asking 1 0 5 []) = .line ∧
    (asking 1 0 5 []).answers = [] := by decide

theorem wit_PendingCancelEndsTheTransmission : ∀ s ∈ [accepted 1, waiting, inFrame 1 0 .write 4, between 0 6],
    nextTurn s = .seq ∧ s.seqState ≠ .idle ∧ s.slReq = false ∧ ShadowValid s ∧ s.pos.i ≤ s.shadow.cw.len ∧
    (beginTurn { s with cancelPend := true }).cancelPend = true := by decide

theorem wit_ClockCountsTheTimerDown :
    nextTurn { waiting with turns := [.clock] } = .clock ∧ waiting.seqState = .framing ∧ waiting.pos.sub = .wait ∧
    nextTurn (turnOf .clock) = .clock ∧ ¬((turnOf .clock).seqState = .framing ∧ (turnOf .clock).pos.sub = .wait) := by decide

theorem wit_PrimitiveFrame :
    primOf .float = some (.sym .float) ∧ (∃ t, exec .float (asking 0 3 4 []) = .next t) ∧ (asking 0 3 4 []).slReq = true ∧
    (asking 0 3 4 []).pos.sub = .write ∧ (4 : BitVec 4).toNat < 5 ∧ 8 ≤ (8 : BitVec 4).toNat :=
  ⟨rfl, ⟨_, rfl⟩, rfl, rfl, by decide, by decide⟩

theorem wit_TransmissionIgnoresTheEncoderRegisters :
    nextTurn waiting ≠ .host ∧ nextTurn waiting ≠ .rst ∧ ∃ t, step waiting = .next t := ⟨by decide, by decide, _, rfl⟩

/-- The symbol One and the Sync of protocol 1, each from its first phase. -/
theorem wit_PrimitiveSendsItsSegment : ∀ c ∈ [((0 : BitVec 5), Prim.sym .one, 4), (1, .sync, 2)],
    let prim := c.2.1
    let n := c.2.2
    let s : State := { inFrame c.1 0 .write 0 with
      shadow := { cw := codewordOf [.one], proto := 1, rep := 3 }
      turns := (List.replicate n phaseTurns).flatten
      answers := List.replicate n .ok }
    let row : ProtocolRow := { unitUs := 350, syncRatio := 31, defaultRepeat := 10 }
    s.seqState = .framing ∧ s.pos.ph = 0 ∧ s.pos.sub = .write ∧ s.slReq = false ∧
      s.cancelPend = false ∧ s.cancelI = false ∧ s.pos.i ≤ s.shadow.cw.len ∧ currentPrim s = some prim ∧
      protocolRow s.shadow.proto = some row ∧ n = (if prim = .sync then 2 else 4) ∧
      s.turns = (List.replicate n phaseTurns).flatten ++ [] ∧ s.answers = List.replicate n .ok ++ [] := by decide

/-- The transmission of one symbol under protocol 1 with no frame, and with two. -/
theorem wit_TransmissionSendsItsFrames : ∀ k ∈ [0, 2],
    let w := [Symbol.one]
    let s : State := { State.reset with
      seqState := .exporting, shadow := { cw := codewordOf w, proto := 1, rep := BitVec.ofNat 16 k }
      turns := transmissionTurns 1 k, answers := List.replicate (k * frameWrites 1) .ok }
    let row : ProtocolRow := { unitUs := 350, syncRatio := 31, defaultRepeat := 10 }
    s.seqState = .exporting ∧ s.wrcnt = 0 ∧ s.slReq = false ∧ s.cancelPend = false ∧ s.cancelI = false ∧
      s.shadow.cw.symbols = some w ∧ protocolRow s.shadow.proto = some row ∧ s.shadow.rep.toNat = k ∧
      s.turns = transmissionTurns w.length k ++ [] ∧ s.answers = List.replicate (k * frameWrites w.length) .ok ++ [] := by decide

end Sys2Proof.Tests
end

section
/-! The register file of 10_state.md: what each index reads, the fields of the packed words at their bits, and
the values after reset. -/

namespace Sys2Proof.Machine

open BitVec

/-! ## What each index reads -/

@[simp] theorem readReg_cwLen (s : State) : readReg 1 s = cwLenWord s.cw := rfl
@[simp] theorem readReg_encStat (s : State) : readReg 4 s = encStatWord s.encStat := rfl
@[simp] theorem readReg_txStat (s : State) : readReg 5 s = txStatWord s := rfl
@[simp] theorem readReg_wrcnt (s : State) : readReg 6 s = s.wrcnt := rfl
@[simp] theorem readReg_txPos (s : State) : readReg 7 s = txPosWord s.pos := rfl

/-- CMD is write-only and the indices 8 to 15 are reserved (R21). -/
theorem readReg_eq_zero {k : BitVec 4} (h : k = 0 ∨ 8 ≤ k.toNat) (s : State) : readReg k s = 0 := by
  rw [readReg, if_neg, if_neg, if_neg, if_neg, if_neg, if_neg, if_neg]
  all_goals
    rintro rfl
    exact absurd h (by decide)

/-- The bits above CW.len read 0 (R21). -/
theorem cwLenWord_eq_zeroExtend (c : Codeword) : cwLenWord c = c.len.zeroExtend 32 :=
  (setWidth_eq_append (by decide)).symm

/-! ## The packed words

Each word is restated with its width written as the sum of its fields' widths, so that the library's lemmas about `++`
apply to it; a mask of reserved bits is cut at the same places. -/

@[simp] theorem levelBit_getElem_zero (l : Level) : (levelBit l)[0] = decide (l = .high) := by cases l <;> rfl

@[simp] theorem subBit_getElem_zero (b : Sub) : (subBit b)[0] = decide (b = .wait) := by cases b <;> rfl

theorem encStatWord_eq_cast (e : EncStatus) :
    encStatWord e = BitVec.cast (n := 8 + 8 + 3 + 1 + 4 + 4 + 1 + 3) rfl
      (0#8 ++ e.val ++ 0#3 ++ ofBool e.which ++ errBits e.err ++ 0#4 ++ ofBool e.done ++ 0#3) := rfl

theorem txStatWord_eq_cast (s : State) :
    txStatWord s = BitVec.cast (n := 8 + 8 + 4 + 4 + 1 + 1 + 1 + 1 + 1 + 1 + 2) rfl
      (0#8 ++ s.txStat.val ++ 0#4 ++ errBits s.txStat.err ++ 0#1 ++ ofBool s.cancelPend ++ levelBit s.line ++
        ofBool s.exported ++ ofBool s.txStat.done ++ ofBool s.busy ++ stateBits s.seqState) := rfl

theorem txPosWord_eq_cast (p : Position) :
    txPosWord p = BitVec.cast (n := 8 + 1 + 2 + 5 + 16) rfl (0#8 ++ subBit p.sub ++ p.ph ++ p.i ++ p.r) := rfl

/-- Bits 31:24, 15:13, 7:4 and 2:0 of ENCSTAT are reserved (R27). -/
theorem encStatWord_reserved (e : EncStatus) : encStatWord e &&& 0xFF00E0F7 = 0 := by
  have hmask : (0xFF00E0F7 : Word) = BitVec.cast (n := 8 + 8 + 3 + 1 + 4 + 4 + 1 + 3) rfl
      (0xFF#8 ++ 0#8 ++ 7#3 ++ 0#1 ++ 0#4 ++ 0xF#4 ++ 0#1 ++ 7#3) := rfl
  simp only [encStatWord_eq_cast, hmask, and_cast, and_append]
  simp

/-- Bits 31:24, 15:12 and 7 of TXSTAT are reserved (R35). -/
theorem txStatWord_reserved (s : State) : txStatWord s &&& 0xFF00F080 = 0 := by
  have hmask : (0xFF00F080 : Word) = BitVec.cast (n := 8 + 8 + 4 + 4 + 1 + 1 + 1 + 1 + 1 + 1 + 2) rfl
      (0xFF#8 ++ 0#8 ++ 0xF#4 ++ 0#4 ++ 1#1 ++ 0#1 ++ 0#1 ++ 0#1 ++ 0#1 ++ 0#1 ++ 0#2) := rfl
  simp only [txStatWord_eq_cast, hmask, and_cast, and_append]
  simp

/-- Bits 31:24 of TXPOS are reserved (R37). -/
theorem txPosWord_reserved (p : Position) : txPosWord p &&& 0xFF000000 = 0 := by
  have hmask : (0xFF000000 : Word) = BitVec.cast (n := 8 + 1 + 2 + 5 + 16) rfl
      (0xFF#8 ++ 0#1 ++ 0#2 ++ 0#5 ++ 0#16) := rfl
  simp only [txPosWord_eq_cast, hmask, and_cast, and_append]
  simp

/-- E_DONE, E_ERR, E_WHICH and E_VAL in ENCSTAT (R27). -/
theorem encStatWord_fields (e : EncStatus) :
    (encStatWord e).getLsbD 3 = e.done ∧ (encStatWord e).extractLsb' 8 4 = errBits e.err ∧
    (encStatWord e).getLsbD 12 = e.which ∧ (encStatWord e).extractLsb' 16 8 = e.val := by
  refine ⟨?done, encErrOfWord_encStatWord e, ?which, ?val⟩
  case val => simp only [encStatWord_eq_cast, extractLsb'_cast, extractLsb'_append_eq_ite]; simp
  all_goals simp only [encStatWord_eq_cast, getLsbD_cast, getLsbD_append]; simp

/-- STATE, T_ERR and T_VAL, the fields of several bits in TXSTAT (R35). -/
theorem txStatWord_fields (s : State) :
    (txStatWord s).extractLsb' 0 2 = stateBits s.seqState ∧ (txStatWord s).extractLsb' 8 4 = errBits s.txStat.err ∧
    (txStatWord s).extractLsb' 16 8 = s.txStat.val := by
  simp only [txStatWord_eq_cast, extractLsb'_cast, extractLsb'_append_eq_ite]
  simp

/-- T_DONE, EXPORTED, LINE and CANCEL_PEND, the flags of TXSTAT beside BUSY (R35). -/
theorem txStatWord_flags (s : State) :
    (txStatWord s).getLsbD 3 = s.txStat.done ∧ (txStatWord s).getLsbD 4 = s.exported ∧
    (txStatWord s).getLsbD 5 = decide (s.line = .high) ∧ (txStatWord s).getLsbD 6 = s.cancelPend := by
  simp only [txStatWord_eq_cast, getLsbD_cast, getLsbD_append]
  simp

/-- R, I and PH in TXPOS (R37). -/
theorem txPosWord_fields (p : Position) :
    (txPosWord p).extractLsb' 0 16 = p.r ∧ (txPosWord p).extractLsb' 16 5 = p.i ∧
    (txPosWord p).extractLsb' 21 2 = p.ph := by
  simp only [txPosWord_eq_cast, extractLsb'_cast, extractLsb'_append_eq_ite]
  simp

/-- SUB in TXPOS is 1 exactly while the position is at a wait (R36, R37). -/
theorem txPosWord_sub (p : Position) : (txPosWord p).getLsbD 23 = decide (p.sub = .wait) := by
  simp only [txPosWord_eq_cast, getLsbD_cast, getLsbD_append]
  simp

/-! ## After reset -/

/-- Every slot of the empty codeword holds `Zero` (R43). -/
theorem codewordEmpty_slot {i : Nat} (h : i < 31) : Codeword.empty.slot i = 0 := by
  rw [slot_of_lt _ h]
  simp [Codeword.empty]

/-- After reset all sixteen host registers read 0 (R21). -/
theorem readReg_reset : ∀ k, readReg k State.reset = 0 := by decide

/-! ## The statements -/

/-- Settles O36: each index reads its word, and each word is cut into its fields. -/
theorem statusWordsHoldTheirFields : Obligations.StatusWordsHoldTheirFields := by
  refine ⟨readReg_reset 4, readReg_reset 5, readReg_reset 7, fun s => ⟨?encStat, ?txStat, ?txPos, readReg_wrcnt s,
    (readReg_cwLen s).trans (cwLenWord_eq_zeroExtend s.cw), readReg_eq_zero (.inl rfl) s,
    fun _ hk => readReg_eq_zero (.inr hk) s⟩⟩
  case encStat =>
    rw [readReg_encStat]
    exact ⟨encStatWord_reserved s.encStat, encStatWord_fields s.encStat⟩
  case txStat =>
    rw [readReg_txStat]
    obtain ⟨hstate, herr, hval⟩ := txStatWord_fields s
    obtain ⟨hdone, hexported, hline, hcancel⟩ := txStatWord_flags s
    exact ⟨txStatWord_reserved s, hstate, busyOfWord_txStatWord s, hdone, hexported, hline, hcancel, herr, hval⟩
  case txPos =>
    rw [readReg_txPos]
    obtain ⟨hr, hi, hph⟩ := txPosWord_fields s.pos
    exact ⟨txPosWord_reserved s.pos, hr, hi, hph, txPosWord_sub s.pos⟩

/-- Settles O1: the fields of `State.reset` are written with the values of R43; slots and register reads have lemmas. -/
theorem resetGivesEveryStateItsResetValue : Obligations.ResetGivesEveryStateItsResetValue :=
  ⟨rfl, fun _ => codewordEmpty_slot, rfl, rfl, rfl, rfl, rfl, rfl, rfl, rfl, rfl, rfl, rfl, rfl, rfl, rfl,
    readReg_reset⟩

end Sys2Proof.Machine
end

section
/-! The text form of a codeword (R91, R92). `symOf` and `parseText` are the partial inverses of `charOf` and `textOf`:
each answers `some` on exactly the image of its partner, and both round trips and the refusals follow from that. -/

namespace Sys2Proof

/-! ## One character -/

@[simp] theorem symOf_charOf (x : Symbol) : symOf (charOf x) = some x := by cases x <;> rfl

theorem symOf_eq_some_iff {c : Char} {x : Symbol} : symOf c = some x ↔ charOf x = c := by
  constructor
  · intro h
    rw [symOf] at h
    split_ifs at h with h0 h1 hF <;> cases h
    exacts [h0.symm, h1.symm, hF.symm]
  · rintro rfl
    exact symOf_charOf x

theorem symOf_eq_none {c : Char} (h0 : c ≠ '0') (h1 : c ≠ '1') (hF : c ≠ 'F') : symOf c = none := by
  rw [symOf, if_neg h0, if_neg h1, if_neg hF]

/-! ## A text -/

theorem parseText_cons_eq_some_iff {c : Char} {cs : List Char} {w : List Symbol} :
    parseText (c :: cs) = some w ↔ ∃ x xs, w = x :: xs ∧ symOf c = some x ∧ parseText cs = some xs := by
  rw [parseText]
  cases symOf c <;> cases parseText cs <;> simp [eq_comm]

theorem parseText_eq_some_iff {t : List Char} {w : List Symbol} : parseText t = some w ↔ textOf w = t := by
  induction t generalizing w with
  | nil => simp [parseText, textOf, eq_comm]
  | cons c cs ih => simp only [parseText_cons_eq_some_iff, symOf_eq_some_iff, ih, textOf, List.map_eq_cons_iff]

/-- A text that parses is the text of a codeword, and `symOf` answers on each of its characters. -/
theorem parseText_eq_none_of_mem {t : List Char} {c : Char} (hc : symOf c = none) (hmem : c ∈ t) : parseText t = none := by
  refine Option.eq_none_iff_forall_ne_some.mpr fun w hw => ?_
  rw [← parseText_eq_some_iff.mp hw, textOf, List.mem_map] at hmem
  obtain ⟨x, -, rfl⟩ := hmem
  simp at hc

/-! ## The statement -/

/-- Settles O20: the two round trips are the two directions of `parseText_eq_some_iff`. -/
theorem textFormRoundTrips : Obligations.TextFormRoundTrips :=
  ⟨rfl, rfl, rfl, symOf_charOf .zero, symOf_charOf .one, symOf_charOf .float,
    fun _ => parseText_eq_some_iff.mpr rfl,
    fun _ _ => parseText_eq_some_iff.mp,
    fun _ h0 h1 hF =>
      have hc := symOf_eq_none h0 h1 hF
      ⟨hc, fun _ _ => parseText_eq_none_of_mem hc List.mem_append_cons_self⟩⟩

end Sys2Proof
end

section
/-! The encoder of 40_encoder.md: the rows of format E as words, the ends of the commands' two frames, and the codewords
that map address bits to symbols (ElroPollin and Dario). -/

namespace Sys2Proof

/-! ## The rows of format E -/

/-- A row's mask and match, seen through one field. -/
theorem extractLsb'_and_of_masked {w mask v : Word} (h : w &&& mask = v) (start len : Nat) :
    w.extractLsb' start len &&& mask.extractLsb' start len = v.extractLsb' start len := by
  rw [← BitVec.extractLsb'_and, h]

/-- A row's mask that covers a field fixes the field to that of the row's match. -/
theorem extractLsb'_of_masked {w mask v : Word} (h : w &&& mask = v) {start len : Nat}
    (hmask : mask.extractLsb' start len = BitVec.allOnes len) : w.extractLsb' start len = v.extractLsb' start len := by
  rw [← extractLsb'_and_of_masked h, hmask, BitVec.and_allOnes]

theorem statusOfBit_extractLsb' (w : Word) (i : Nat) :
    statusOfBit (w.extractLsb' i 1) = if w.getLsbD i then .on else .off := by
  have hbit : w.extractLsb' i 1 = BitVec.ofBool (w.getLsbD i) := by
    apply BitVec.eq_of_getLsbD_eq
    intro j hj
    obtain rfl : j = 0 := by omega
    simp
  rw [hbit]
  cases w.getLsbD i <;> rfl

/-- With OP = 1 the family alone selects among the rows of format E (R101, R108). -/
theorem decodeCommand_formatE {w : Word} (hop : w.extractLsb' 0 4 = 1) :
    decodeCommand w =
      let fam := w.extractLsb' 4 4
      let proto := w.extractLsb' 8 4
      let st := if w.getLsbD 12 then .on else .off
      let master := w.extractLsb' 16 8
      let slave := w.extractLsb' 24 8
      if fam = 0 then .ok (.encElro proto st master slave)
      else if fam = 1 then .ok (.encIt proto st master slave)
      else if fam = 2 then .ok (.encItPar proto st master slave)
      else if fam = 3 then .ok (.encDario proto st master slave)
      else if fam.toNat < 8 then .ok (.encUndefLow fam proto st master slave)
      else .ok (.encUndefHigh fam proto st master slave) := by
  rw [decodeCommand, hop, statusOfBit_extractLsb']
  rfl

theorem decodeCommand_encElro {w : Word} (h : w &&& 0xFF = 0x01) :
    decodeCommand w = .ok (.encElro (w.extractLsb' 8 4) (if w.getLsbD 12 then .on else .off)
      (w.extractLsb' 16 8) (w.extractLsb' 24 8)) := by
  have hfam : w.extractLsb' 4 4 = 0 := extractLsb'_of_masked h rfl
  simp [decodeCommand_formatE (extractLsb'_of_masked h rfl), hfam]

theorem decodeCommand_encDario {w : Word} (h : w &&& 0xFF = 0x31) :
    decodeCommand w = .ok (.encDario (w.extractLsb' 8 4) (if w.getLsbD 12 then .on else .off)
      (w.extractLsb' 16 8) (w.extractLsb' 24 8)) := by
  have hfam : w.extractLsb' 4 4 = 3 := extractLsb'_of_masked h rfl
  simp [decodeCommand_formatE (extractLsb'_of_masked h rfl), hfam]

/-- The families that have no encoding rule are split between the two rows of `ENC.UNDEF` (R146). -/
theorem decodeCommand_encUndef {w : Word} (hop : w.extractLsb' 0 4 = 1) (hfam : 4 ≤ (w.extractLsb' 4 4).toNat) :
    decodeCommand w = .ok
      ((if (w.extractLsb' 4 4).toNat < 8 then Instr.encUndefLow else Instr.encUndefHigh) (w.extractLsb' 4 4)
        (w.extractLsb' 8 4) (if w.getLsbD 12 then .on else .off) (w.extractLsb' 16 8) (w.extractLsb' 24 8)) := by
  have hne : ∀ k : BitVec 4, k.toNat < 4 → w.extractLsb' 4 4 ≠ k := fun k hk hfk => by
    rw [hfk] at hfam
    omega
  rw [decodeCommand_formatE hop]
  simp only [hne 0 (by decide), hne 1 (by decide), hne 2 (by decide), hne 3 (by decide), if_false]
  split <;> rfl

/-- The mask leaves the two low bits of FAM free: the families 4 to 7 (R146). -/
theorem decodeCommand_encUndefLow {w : Word} (h : w &&& 0xCF = 0x41) :
    decodeCommand w = .ok (.encUndefLow (w.extractLsb' 4 4) (w.extractLsb' 8 4) (if w.getLsbD 12 then .on else .off)
      (w.extractLsb' 16 8) (w.extractLsb' 24 8)) := by
  have hrange : ∀ fam : BitVec 4, fam &&& 0xC = 4 → 4 ≤ fam.toNat ∧ fam.toNat < 8 := by decide
  obtain ⟨hge, hlt⟩ := hrange _ (extractLsb'_and_of_masked h 4 4)
  rw [decodeCommand_encUndef (extractLsb'_of_masked h rfl) hge, if_pos hlt]

/-- The mask leaves the three low bits of FAM free: the families 8 to 15 (R146). -/
theorem decodeCommand_encUndefHigh {w : Word} (h : w &&& 0x8F = 0x81) :
    decodeCommand w = .ok (.encUndefHigh (w.extractLsb' 4 4) (w.extractLsb' 8 4) (if w.getLsbD 12 then .on else .off)
      (w.extractLsb' 16 8) (w.extractLsb' 24 8)) := by
  have hrange : ∀ fam : BitVec 4, fam &&& 8 = 8 → 8 ≤ fam.toNat := by decide
  have hge := hrange _ (extractLsb'_and_of_masked h 4 4)
  rw [decodeCommand_encUndef (extractLsb'_of_masked h rfl) (Nat.le_trans (by decide) hge), if_neg (Nat.not_lt.mpr hge)]

end Sys2Proof

namespace Sys2Proof.Machine

/-! ## Which frame a command runs -/

theorem exec_encElro (p : BitVec 4) (st : Status) (m sl : BitVec 8) (s : State) :
    exec (.encElro p st m sl) s = .next (encFrame .elro (elroCodeword m sl st) p m sl s) := rfl

theorem exec_encDario (p : BitVec 4) (st : Status) (m sl : BitVec 8) (s : State) :
    exec (.encDario p st m sl) s = .next (encFrame .dario (darioCodeword darioPattern m sl st) p m sl s) := rfl

theorem exec_encUndefLow (fam p : BitVec 4) (st : Status) (m sl : BitVec 8) (s : State) :
    exec (.encUndefLow fam p st m sl) s = .next (encUndefFrame fam p s) := rfl

theorem exec_encUndefHigh (fam p : BitVec 4) (st : Status) (m sl : BitVec 8) (s : State) :
    exec (.encUndefHigh fam p st m sl) s = .next (encUndefFrame fam p s) := rfl

/-! ## How a command in a frame ends -/

theorem protoSupported_eq_false {p : BitVec 4} (h : ¬Supported p) : protoSupported p = false :=
  Bool.eq_false_iff.mpr fun hp => h ((protoSupported_iff p).mp hp)

theorem encUndefFrame_supported (fam : BitVec 4) {p : BitVec 4} (hp : Supported p) (s : State) :
    encUndefFrame fam p s = raiseEnc .unsupportedVendor false (fam.zeroExtend 8) s := by
  simp [encUndefFrame, (protoSupported_iff p).mpr hp]

theorem encUndefFrame_unsupported (fam : BitVec 4) {p : BitVec 4} (hp : ¬Supported p) (s : State) :
    encUndefFrame fam p s = raiseEnc .unsupportedProtocol false (p.zeroExtend 8) s := by
  rw [encUndefFrame, if_pos (protoSupported_eq_false hp)]

section Frame

variable {i : Instr} {f : Family} {w : List Symbol} {p : BitVec 4} {m sl : BitVec 8} {s : State}

theorem encRaises_unsupportedProtocol (hexec : exec i s = .next (encFrame f w p m sl s)) (hp : ¬Supported p) :
    EncRaises i s .unsupportedProtocol false (p.zeroExtend 8) := by
  rw [EncRaises, hexec, encFrame, if_pos (protoSupported_eq_false hp)]
  rfl

theorem encRaises_unsupportedMaster (hexec : exec i s = .next (encFrame f w p m sl s)) (hp : Supported p)
    (hm : masterInTable f m = false) : EncRaises i s .unsupportedAddress false m := by
  have hp := (protoSupported_iff p).mpr hp
  simp [EncRaises, hexec, encFrame, hp, hm, raiseEnc]

theorem encRaises_unsupportedSlave (hexec : exec i s = .next (encFrame f w p m sl s)) (hp : Supported p)
    (hm : masterInTable f m = true) (hsl : slaveInTable f sl = false) : EncRaises i s .unsupportedAddress true sl := by
  have hp := (protoSupported_iff p).mpr hp
  simp [EncRaises, hexec, encFrame, hp, hm, hsl, raiseEnc]

/-- The codeword that an `ENC` stores, slot by slot: its symbols' codes and zeros above (R131). -/
theorem encStores_codeword (hexec : exec i s = .next (encFrame f w p m sl s)) (hp : Supported p)
    (hm : masterInTable f m = true) (hsl : slaveInTable f sl = true) {n : Nat} {slots : Nat → BitVec 2}
    (hlen : w.length = n) (hn : n < 32) (hslots : ∀ j, j < n → w[j]?.map symbolCode = some (slots j)) :
    EncStores i s n slots := by
  have hp := (protoSupported_iff p).mpr hp
  refine ⟨storeCodeword w s, ?exec, rfl, ?len, fun j hj => ?slot⟩
  case exec => simp [hexec, encFrame, hp, hm, hsl]
  case len =>
    rw [storeCodeword_cw, codewordOf_len, hlen, BitVec.toNat_ofNat]
    exact Nat.mod_eq_of_lt hn
  case slot =>
    rw [storeCodeword_cw, codewordOf_slot w hj]
    split_ifs with hjn
    · obtain ⟨x, hx, hcode⟩ := Option.map_eq_some_iff.mp (hslots j hjn)
      simp [hx, hcode]
    · simp [List.getElem?_eq_none (hlen.trans_le (Nat.le_of_not_lt hjn))]

/-- The four ends of a family whose two addresses have one bound b. -/
theorem encFrame_ends_of_bound (hexec : exec i s = .next (encFrame f w p m sl s)) {b n : Nat} {slots : Nat → BitVec 2}
    (hm : masterInTable f m = decide (m.toNat ≤ b)) (hsl : slaveInTable f sl = decide (sl.toNat ≤ b))
    (hlen : w.length = n) (hn : n < 32) (hslots : ∀ j, j < n → w[j]?.map symbolCode = some (slots j)) :
    (Supported p → m.toNat ≤ b → sl.toNat ≤ b → EncStores i s n slots) ∧
    (¬Supported p → EncRaises i s .unsupportedProtocol false (p.zeroExtend 8)) ∧
    (Supported p → b < m.toNat → EncRaises i s .unsupportedAddress false m) ∧
    (Supported p → m.toNat ≤ b → b < sl.toNat → EncRaises i s .unsupportedAddress true sl) := by
  refine ⟨fun hp hmb hslb => ?stores, encRaises_unsupportedProtocol hexec, fun hp hmb => ?master, fun hp hmb hslb => ?slave⟩
  case stores =>
    exact encStores_codeword hexec hp (hm.trans (decide_eq_true hmb)) (hsl.trans (decide_eq_true hslb)) hlen hn hslots
  case master => exact encRaises_unsupportedMaster hexec hp (hm.trans (decide_eq_false (Nat.not_le.mpr hmb)))
  case slave =>
    exact encRaises_unsupportedSlave hexec hp (hm.trans (decide_eq_true hmb))
      (hsl.trans (decide_eq_false (Nat.not_le.mpr hslb)))

end Frame

/-! ## The codewords over address bits -/

@[simp] theorem addrBits_length (n : Nat) (f : BitVec 8) : (addrBits n f).length = n := by simp [addrBits]

theorem symbolCode_bitmap (b : Bool) : symbolCode (bitmap b) = if b then 0 else 2 := by cases b <;> rfl

/-- The slot codes of the symbols of an address field, leftmost bit first (R64, R134). -/
theorem addrBits_code {n j : Nat} (f : BitVec 8) (hj : j < n) :
    ((addrBits n f).map bitmap)[j]?.map symbolCode = some (if f.getLsbD (n - 1 - j) then 0 else 2) := by
  simp [addrBits, hj, symbolCode_bitmap]

section AddressPair

/-! The two address fields of n bits that ElroPollin and Dario have in common, and what follows them. -/

variable {n j : Nat} (m sl : BitVec 8) (suffix : List Symbol)

theorem addrBits_pair_master (hj : j < n) :
    ((addrBits n m).map bitmap ++ (addrBits n sl).map bitmap ++ suffix)[j]?.map symbolCode =
      some (if m.getLsbD (n - 1 - j) then 0 else 2) := by
  rw [List.append_assoc, List.getElem?_append_left (by simpa using hj), addrBits_code m hj]

theorem addrBits_pair_slave (hn : n ≤ j) (hj : j < 2 * n) :
    ((addrBits n m).map bitmap ++ (addrBits n sl).map bitmap ++ suffix)[j]?.map symbolCode =
      some (if sl.getLsbD (2 * n - 1 - j) then 0 else 2) := by
  have hfield : j - n < n := by omega
  have hbit : n - 1 - (j - n) = 2 * n - 1 - j := by omega
  rw [List.append_assoc, List.getElem?_append_right (by simpa using hn), List.length_map, addrBits_length,
    List.getElem?_append_left (by simpa using hfield), addrBits_code sl hfield, hbit]

theorem addrBits_pair_suffix (hj : 2 * n ≤ j) :
    ((addrBits n m).map bitmap ++ (addrBits n sl).map bitmap ++ suffix)[j]? = suffix[j - 2 * n]? := by
  have hlen : ((addrBits n m).map bitmap ++ (addrBits n sl).map bitmap).length = 2 * n := by simp [two_mul]
  rw [List.getElem?_append_right (hlen.trans_le hj), hlen]

end AddressPair

theorem elroCodeword_length (m sl : BitVec 8) (st : Status) : (elroCodeword m sl st).length = 12 := by
  cases st <;> simp [elroCodeword, elroSuffix]

/-- The slot codes of ElroPollin: 5 master bits, 5 slave bits, the status pair (R133). -/
theorem elroCodeword_code (m sl : BitVec 8) (st : Status) {j : Nat} (hj : j < 12) :
    (elroCodeword m sl st)[j]?.map symbolCode = some (
      if j < 5 then (if m.getLsbD (4 - j) then 0 else 2)
      else if j < 10 then (if sl.getLsbD (9 - j) then 0 else 2)
      else if j = 10 then (if st = .on then 0 else 2)
      else (if st = .on then 2 else 0)) := by
  rw [elroCodeword]
  by_cases hmaster : j < 5
  · rw [if_pos hmaster, addrBits_pair_master m sl _ hmaster]
  by_cases hslave : j < 10
  · rw [if_neg hmaster, if_pos hslave, addrBits_pair_slave m sl _ (Nat.le_of_not_lt hmaster) hslave]
  rw [if_neg hmaster, if_neg hslave, addrBits_pair_suffix m sl _ (Nat.le_of_not_lt hslave)]
  obtain rfl | rfl : j = 10 ∨ j = 11 := by omega
  all_goals cases st <;> rfl

theorem darioCodeword_length (pattern : Status → Vector Symbol 8) (m sl : BitVec 8) (st : Status) :
    (darioCodeword pattern m sl st).length = 21 := by
  simp [darioCodeword]

theorem darioPattern_getElem (st : Status) {k : Nat} (hk : k < 8) :
    (darioPattern st)[k] = if st = .on then Config.darioOn ⟨k, hk⟩ else Config.darioOff ⟨k, hk⟩ := by
  cases st <;> simp [darioPattern]

/-- The slot codes of Dario: Zero, 6 master bits, 6 slave bits, the status pattern whatever it is (R143). -/
theorem darioCodeword_code (m sl : BitVec 8) (st : Status) {j : Nat} (hj : j < 21) :
    (darioCodeword darioPattern m sl st)[j]?.map symbolCode = some (
      if j = 0 then 0
      else if j < 7 then (if m.getLsbD (6 - j) then 0 else 2)
      else if j < 13 then (if sl.getLsbD (12 - j) then 0 else 2)
      else if h : j - 13 < 8 then symbolCode (if st = .on then Config.darioOn ⟨j - 13, h⟩ else Config.darioOff ⟨j - 13, h⟩)
      else 0) := by
  have hcons : darioCodeword darioPattern m sl st =
      .zero :: ((addrBits 6 m).map bitmap ++ (addrBits 6 sl).map bitmap ++ (darioPattern st).toList) := rfl
  rw [hcons]
  rcases j with _ | k
  · rfl
  rw [List.getElem?_cons_succ, if_neg k.succ_ne_zero]
  by_cases hmaster : k < 6
  · have hbit : 6 - (k + 1) = 6 - 1 - k := by omega
    rw [if_pos (Nat.succ_lt_succ hmaster), addrBits_pair_master m sl _ hmaster, hbit]
  by_cases hslave : k < 12
  · have hbit : 12 - (k + 1) = 2 * 6 - 1 - k := by omega
    rw [if_neg (by omega), if_pos (Nat.succ_lt_succ hslave),
      addrBits_pair_slave m sl _ (Nat.le_of_not_lt hmaster) hslave, hbit]
  have hpattern : k + 1 - 13 < 8 := by omega
  have hslot : k - 2 * 6 = k + 1 - 13 := by omega
  rw [if_neg (by omega), if_neg (by omega), dif_pos hpattern, addrBits_pair_suffix m sl _ (Nat.le_of_not_lt hslave), hslot,
    Vector.getElem?_toList, Vector.getElem?_eq_getElem hpattern, darioPattern_getElem st hpattern]
  rfl

/-! ## The statements -/

/-- Settles O24: the row's word, and the ends of `encFrame` over the ElroPollin codeword. -/
theorem encElroStoresItsCodewordOrRaises : Obligations.EncElroStoresItsCodewordOrRaises :=
  ⟨fun _ => decodeCommand_encElro, fun p st m sl s =>
    encFrame_ends_of_bound (exec_encElro p st m sl s) rfl rfl (elroCodeword_length m sl st) (by decide)
      fun _ => elroCodeword_code m sl st⟩

/-- Settles O27: the row's word, and the ends of `encFrame` over the Dario codeword. -/
theorem encDarioStoresItsCodewordOrRaises : Obligations.EncDarioStoresItsCodewordOrRaises :=
  ⟨fun _ => decodeCommand_encDario, fun p st m sl s =>
    encFrame_ends_of_bound (exec_encDario p st m sl s) rfl rfl (darioCodeword_length darioPattern m sl st) (by decide)
      fun _ => darioCodeword_code m sl st⟩

/-- Settles O28: the two rows' words, and the two ends of `encUndefFrame`. -/
theorem encUndefRaisesUnsupportedVendor : Obligations.EncUndefRaisesUnsupportedVendor := by
  refine ⟨fun _ => decodeCommand_encUndefLow, fun _ => decodeCommand_encUndefHigh, fun fam p st m sl s => ?_⟩
  have hlow := exec_encUndefLow fam p st m sl s
  have hhigh := exec_encUndefHigh fam p st m sl s
  refine ⟨fun hp => ?supported, fun hp => ?unsupported⟩
  case supported =>
    rw [encUndefFrame_supported fam hp] at hlow hhigh
    exact ⟨hlow, hhigh⟩
  case unsupported =>
    rw [encUndefFrame_unsupported fam hp] at hlow hhigh
    exact ⟨hlow, hhigh⟩

end Sys2Proof.Machine
end

section
/-! The host commands of 42_transmitter.md: NOP. -/

namespace Sys2Proof

/-- The row of NOP fixes OP alone (R103, R180). -/
theorem decodeCommand_nop {w : Word} (h : w &&& 0xF = 0x0) : decodeCommand w = .ok .nop := by
  have hop : w.extractLsb' 0 4 = 0 := extractLsb'_of_masked h rfl
  rw [decodeCommand, hop]
  rfl

end Sys2Proof

namespace Sys2Proof.Machine

@[simp] theorem exec_nop (s : State) : exec .nop s = .next s := rfl

/-- Settles O39: the row's word, and the state `exec` answers. -/
theorem nopHasNoEffect : Obligations.NopHasNoEffect :=
  ⟨fun _ => decodeCommand_nop, exec_nop⟩

end Sys2Proof.Machine
end

section
/-! What the turn of each agent does: one inversion of the meanings of instructions, and one of the turns. -/

namespace Sys2Proof.Machine

/-! ## The meaning of an instruction -/

/-- The primitives are run by `primStep` (R160). -/
theorem exec_of_primOf {i : Instr} {prim : Prim} (h : primOf i = some prim) (s : State) : exec i s = primStep prim s := by
  cases i <;> cases h <;> rfl

/-- The part of `StatusLegal` that speaks of ENCSTAT (R27, R96). -/
def EncStatusLegal (e : EncStatus) : Prop :=
  (e.err = .ok ∨ e.err = .unsupportedVendor ∨ e.err = .unsupportedProtocol ∨ e.err = .unsupportedAddress) ∧
  (e.err = .ok → e.val = 0) ∧ (e.which = true → e.err = .unsupportedAddress) ∧ (e.done = false → e.err = .ok)

/-- The part of `StatusLegal` that speaks of TXSTAT (R34, R96). -/
def TxStatusLegal (x : TxStatus) : Prop :=
  (x.err = .ok ∨ x.err = .unsupportedProtocol ∨ x.err = .lineWriteFailed ∨ x.err = .cancelled) ∧
  (x.err ≠ .unsupportedProtocol → x.val = 0)

theorem statusLegal_iff (s : State) : StatusLegal s ↔ EncStatusLegal s.encStat ∧ TxStatusLegal s.txStat := by
  simp only [StatusLegal, EncStatusLegal, TxStatusLegal, and_assoc]

/-- How an `ENC` ends: the same error in every state, or the same codeword for one configuration of the tables (R131). -/
inductive EncodeEnd (i : Instr) : Prop
  | raises (e : ErrCode) (which : Bool) (val : BitVec 8) (he : e ≠ .ok)
      (hlegal : EncStatusLegal { done := true, err := e, which := which, val := val })
      (hexec : ∀ s, exec i s = .next (raiseEnc e which val s))
  | stores (w : EncTables → List Symbol) (hexec : ∀ s, exec i s = .next (storeCodeword (w s.tables) s))

theorem encodeEnd_of_encFrame {i : Instr} {f : Family} {w : EncTables → List Symbol} {p : BitVec 4} {m sl : BitVec 8}
    (hexec : ∀ s, exec i s = .next (encFrame f (w s.tables) p m sl s)) : EncodeEnd i := by
  cases hp : protoSupported p with
  | false =>
    refine .raises .unsupportedProtocol false (p.zeroExtend 8) (by decide) (by simp [EncStatusLegal]) fun s => ?_
    rw [hexec s, encFrame, if_pos hp]
  | true =>
    cases hm : masterInTable f m with
    | false =>
      refine .raises .unsupportedAddress false m (by decide) (by simp [EncStatusLegal]) fun s => ?_
      simp [hexec, encFrame, hp, hm]
    | true =>
      cases hsl : slaveInTable f sl with
      | false =>
        refine .raises .unsupportedAddress true sl (by decide) (by simp [EncStatusLegal]) fun s => ?_
        simp [hexec, encFrame, hp, hm, hsl]
      | true => exact .stores w fun s => by simp [hexec, encFrame, hp, hm, hsl]

theorem encodeEnd_of_encUndefFrame {i : Instr} {fam p : BitVec 4} (hexec : ∀ s, exec i s = .next (encUndefFrame fam p s)) :
    EncodeEnd i := by
  cases hp : protoSupported p with
  | false =>
    refine .raises .unsupportedProtocol false (p.zeroExtend 8) (by decide) (by simp [EncStatusLegal]) fun s => ?_
    rw [hexec s, encUndefFrame, if_pos hp]
  | true =>
    refine .raises .unsupportedVendor false (fam.zeroExtend 8) (by decide) (by simp [EncStatusLegal]) fun s => ?_
    rw [hexec s, encUndefFrame, if_neg (by simp [hp])]

theorem encodeEnd {i : Instr} (hi : isEncode i = true) : EncodeEnd i := by
  cases i with
  | encElro p st m sl => exact encodeEnd_of_encFrame (w := fun _ => elroCodeword m sl st) (exec_encElro p st m sl)
  | encIt p st m sl => exact encodeEnd_of_encFrame (w := fun t => itCodeword (itTabOf t) m sl st) fun _ => rfl
  | encItPar p st m sl => exact encodeEnd_of_encFrame (w := fun t => itParCodeword (parMOf t) (parSOf t) m sl st) fun _ => rfl
  | encDario p st m sl => exact encodeEnd_of_encFrame (w := fun _ => darioCodeword darioPattern m sl st) (exec_encDario p st m sl)
  | encUndefLow fam p st m sl => exact encodeEnd_of_encUndefFrame (exec_encUndefLow fam p st m sl)
  | encUndefHigh fam p st m sl => exact encodeEnd_of_encUndefFrame (exec_encUndefHigh fam p st m sl)
  | _ => cases hi

/-- What NOP, TX, TXR and CANCEL do to the state they run in (R180 to R185). -/
inductive TransmitterEffect (s : State) : State → Prop
  | nothing : TransmitterEffect s s
  | hold {i : Instr} (hbusy : s.seqState ≠ .idle) (hi : heldLegal (some i) = true) : TransmitterEffect s (holdWrite i s)
  | reject {p : BitVec 4} (hidle : s.seqState = .idle) : TransmitterEffect s (rejectTx p s)
  | accept {p : BitVec 4} {n : BitVec 16} (hidle : s.seqState = .idle) (hp : protoSupported p = true)
      (hcw : s.cw.hasReserved = false) : TransmitterEffect s (acceptTx p n s)
  | cancel : TransmitterEffect s (requestCancel s)

/-- The fields that NOP, TX, TXR and CANCEL can write. -/
theorem TransmitterEffect.frame {s t : State} (h : TransmitterEffect s t) :
    t = { s with
      seqState := t.seqState, cancelPend := t.cancelPend, txStat := t.txStat, shadow := t.shadow, wrcnt := t.wrcnt
      held := t.held, trace := t.trace } := by
  cases h with
  | cancel => unfold requestCancel; split_ifs <;> rfl
  | _ => rfl

/-- What a host command does to the state it runs in. -/
inductive CommandEffect (s : State) : State → Prop
  | encode (c : Codeword) (e : EncStatus) (he : EncStatusLegal e) : CommandEffect s { s with cw := c, encStat := e }
  | transmitter {t : State} (h : TransmitterEffect s t) : CommandEffect s t

theorem transmitterEffect_of_startTx {i : Instr} {p : BitVec 4} {count : ProtocolRow → BitVec 16} {s t : State}
    (hi : heldLegal (some i) = true) (h : startTx i p count s = .next t) : TransmitterEffect s t := by
  rcases startTx_next h with ⟨hbusy, rfl⟩ | ⟨hidle, -, rfl⟩ | ⟨row, hidle, hrow, hcw, rfl⟩
  · exact .hold hbusy hi
  · exact .reject hidle
  · exact .accept hidle (by simp [protoSupported, hrow]) hcw

theorem transmitterEffect_of_exec {i : Instr} {s t : State} (hi : isCommand i = true) (hn : isEncode i = false)
    (h : exec i s = .next t) : TransmitterEffect s t := by
  cases i with
  | nop => cases h; exact .nothing
  | tx p => exact transmitterEffect_of_startTx rfl h
  | txr p n => exact transmitterEffect_of_startTx rfl h
  | cancel => cases h; exact .cancel
  | zero | one | float | sync => cases hi
  | _ => cases hn

theorem commandEffect_of_encode {i : Instr} {s t : State} (hi : isEncode i = true) (h : exec i s = .next t) :
    CommandEffect s t := by
  cases encodeEnd hi with
  | raises e which val he hlegal hexec =>
    cases (hexec s).symm.trans h
    exact .encode s.cw _ hlegal
  | stores w hexec =>
    cases (hexec s).symm.trans h
    exact .encode _ _ (by simp [EncStatusLegal])

/-- The inversion of the host commands' meanings. -/
theorem commandEffect_of_exec {i : Instr} {s t : State} (hi : isCommand i = true) (h : exec i s = .next t) :
    CommandEffect s t := by
  cases hn : isEncode i with
  | true => exact commandEffect_of_encode hn h
  | false => exact .transmitter (transmitterEffect_of_exec hi hn h)

/-- The inversion of the meaning of an instruction. -/
theorem exec_effect {i : Instr} {s t : State} (h : exec i s = .next t) :
    CommandEffect s t ∨ ∃ prim, primOf i = some prim ∧ primStep prim s = .next t := by
  cases hi : isCommand i with
  | true => exact .inl (commandEffect_of_exec hi h)
  | false =>
    cases i with
    | zero | one | float | sync => exact .inr ⟨_, rfl, h⟩
    | _ => cases hi

/-! ## The turns -/

theorem seqTurn_of_idle {s : State} (hs : s.seqState = .idle) : seqTurn exec s = .next s := by
  rw [seqTurn, hs]

theorem seqTurn_of_exporting {s : State} (hs : s.seqState = .exporting) : seqTurn exec s = .next (exportStep s) := by
  rw [seqTurn, hs]

theorem seqTurn_of_repeating {s : State} (hs : s.seqState = .repeating) : seqTurn exec s = .next (repeatStep s) := by
  rw [seqTurn, hs]

theorem lineTurn_of_nil {s : State} (ha : s.answers = []) : lineTurn s = .next s := by
  rw [lineTurn, ha]

theorem lineTurn_of_cons {s : State} {a : Answer} {rest : List Answer} (ha : s.answers = a :: rest) :
    lineTurn s = lineAnswer a { s with answers := rest } := by
  rcases lineTurn_cases s with ⟨hn, -⟩ | ⟨a', rest', ha', he⟩
  · cases ha.symm.trans hn
  · cases ha.symm.trans ha'
    exact he

/-- What the turn of each agent does to the state in which it begins. -/
inductive TurnEffect (u : State) : Turn → State → Prop
  /-- An access of HOST that runs no instruction, or none. -/
  | access (c : Codeword) (rdata : Word) (prog : List HostOp) :
      TurnEffect u .host { u with cw := c, regRdata := rdata, hostProg := prog }
  /-- A command, or the held instruction once the sequencer is Idle. -/
  | run {t : State} {i : Instr} (prog : List HostOp)
      (hi : (u.held = none ∧ isCommand i = true) ∨ (u.held = some i ∧ u.seqState = .idle))
      (hexec : exec i { u with held := none, hostProg := prog } = .next t) : TurnEffect u .host t
  | idle (hs : u.seqState = .idle) : TurnEffect u .seq u
  | exporting (hs : u.seqState = .exporting) : TurnEffect u .seq (exportStep u)
  | framing {t : State} {prim : Prim} (hs : u.seqState = .framing) (hprim : currentPrim u = some prim)
      (hstep : primStep prim u = .next t) : TurnEffect u .seq t
  | repeating (hs : u.seqState = .repeating) : TurnEffect u .seq (repeatStep u)
  | unanswered (ha : u.answers = []) : TurnEffect u .line u
  | answered {t : State} {a : Answer} {rest : List Answer} (ha : u.answers = a :: rest)
      (hanswer : lineAnswer a { u with answers := rest } = .next t) : TurnEffect u .line t
  | pin (level : Bool) : TurnEffect u (.cancelPin level) { u with cancelI := level }
  | reset : TurnEffect u .rst (resetHardware u)
  | clock : TurnEffect u .clock (clockTick u)

/-- HOST's writes of registers touch CW only (R62). -/
theorem hostWrite_eq (k : BitVec 4) (v : Word) (s : State) : hostWrite k v s = { s with cw := (hostWrite k v s).cw } := by
  unfold hostWrite
  split_ifs <;> rfl

theorem isCommand_of_decodeCommand {w : Word} {i : Instr} (h : decodeCommand w = .ok i) : isCommand i = true := by
  unfold decodeCommand at h
  extract_lets at h
  split_ifs at h <;> cases h <;> rfl

theorem turnEffect_of_hostOp {u t : State} {op : HostOp} {rest : List HostOp} (hheld : u.held = none)
    (h : hostOp exec op { u with hostProg := rest } = .next t) : TurnEffect u .host t := by
  cases op with
  | read k => cases h; exact .access u.cw _ rest
  | waitTx =>
    rw [hostOp_waitTx] at h
    cases h
    exact .access u.cw _ _
  | ifEncOk n =>
    rw [hostOp_ifEncOk] at h
    cases h
    exact .access u.cw _ _
  | write k v =>
    by_cases hk : k = 0
    · subst hk
      rw [hostOp_write_cmd] at h
      rcases hostCommand_cases exec v { u with hostProg := rest } with ⟨i, hi, he⟩ | ⟨e, hi, he⟩
      · refine .run rest (.inl ⟨hheld, isCommand_of_decodeCommand hi⟩) ?_
        rw [← hheld, ← h, he]
      · cases he.symm.trans h
        exact .access u.cw u.regRdata rest
    · rw [hostOp_write_other exec hk, hostWrite_eq] at h
      cases h
      exact .access _ u.regRdata rest

theorem turnEffect_of_hostTurn {u t : State} (h : hostTurn exec u = .next t) : TurnEffect u .host t := by
  rcases hostTurn_cases exec u with ⟨-, -, he⟩ | ⟨i, -, -, he⟩ | ⟨i, hheld, hidle, he⟩ | ⟨op, rest, hheld, -, he⟩
  · cases he.symm.trans h
    exact .access u.cw u.regRdata u.hostProg
  · cases he.symm.trans h
    exact .access u.cw u.regRdata u.hostProg
  · exact .run u.hostProg (.inr ⟨hheld, hidle⟩) (he.symm.trans h)
  · exact turnEffect_of_hostOp hheld (he.symm.trans h)

theorem turnEffect_of_seqTurn {u t : State} (h : seqTurn exec u = .next t) : TurnEffect u .seq t := by
  cases hs : u.seqState with
  | idle =>
    cases (seqTurn_of_idle hs).symm.trans h
    exact .idle hs
  | exporting =>
    cases (seqTurn_of_exporting hs).symm.trans h
    exact .exporting hs
  | framing =>
    cases hprim : currentPrim u with
    | none =>
      rw [seqTurn, hs, decodePrim_primSelect, hprim] at h
      cases h
    | some prim => exact .framing hs hprim ((seqTurn_framing hs hprim).symm.trans h)
  | repeating =>
    cases (seqTurn_of_repeating hs).symm.trans h
    exact .repeating hs

theorem turnEffect_of_lineTurn {u t : State} (h : lineTurn u = .next t) : TurnEffect u .line t := by
  rcases lineTurn_cases u with ⟨ha, he⟩ | ⟨a, rest, ha, he⟩
  · cases he.symm.trans h
    exact .unanswered ha
  · exact .answered ha (he.symm.trans h)

/-- The inversion of a step. -/
theorem turnEffect_of_step {s t : State} (h : step s = .next t) : TurnEffect (beginTurn s) (nextTurn s) t := by
  rw [step_eq] at h
  generalize nextTurn s = turn at h ⊢
  cases turn with
  | host => exact turnEffect_of_hostTurn h
  | seq => exact turnEffect_of_seqTurn h
  | line => exact turnEffect_of_lineTurn h
  | cancelPin level => cases h; exact .pin level
  | rst => cases h; exact .reset
  | clock => cases h; exact .clock

end Sys2Proof.Machine
end

section
/-! The invariant `Coherent`: it holds after reset, and the turn of every agent keeps it. -/

namespace Sys2Proof.Machine

/-! ## Operations outside a frame -/

/-- The fields that `Coherent` does not read. -/
theorem Coherent.frame {s : State} (h : Coherent s) (cw : Codeword) (tmr : Nat) (rdata : Word) (cancelI : Bool)
    (turns : List Turn) (prog : List HostOp) (answers : List Answer) (trace : List Event) (pin : Option Level) :
    Coherent { s with
      cw := cw, tmr := tmr, regRdata := rdata, cancelI := cancelI, turns := turns, hostProg := prog, answers := answers
      trace := trace, pin := pin } :=
  ⟨h.busy, h.idle, h.exporting, h.framing, h.repeating, h.request, h.status, h.held⟩

theorem Coherent.slReq_of_ne_framing {s : State} (h : Coherent s) (hs : s.seqState ≠ .framing) : s.slReq = false :=
  Bool.eq_false_iff.mpr fun hr => hs (h.request hr).1

theorem Coherent.withHeld {s : State} (h : Coherent s) {held : Option Instr} (hh : heldLegal held = true) :
    Coherent { s with held := held } :=
  ⟨h.busy, h.idle, h.exporting, h.framing, h.repeating, h.request, h.status, hh⟩

theorem Coherent.withEncStat {s : State} (h : Coherent s) {e : EncStatus} (he : EncStatusLegal e) :
    Coherent { s with encStat := e } :=
  ⟨h.busy, h.idle, h.exporting, h.framing, h.repeating, h.request,
    (statusLegal_iff _).mpr ⟨he, ((statusLegal_iff s).mp h.status).2⟩, h.held⟩

/-- A state that is Idle with nothing requested or cancelled is coherent if its status and held write are legal. -/
theorem coherent_of_idle {s : State} (hs : s.seqState = .idle) (hc : s.cancelPend = false) (hr : s.slReq = false)
    (hstatus : StatusLegal s) (hheld : heldLegal s.held = true) : Coherent s where
  busy hb := absurd hs hb
  idle _ := hc
  exporting he := by simp [hs] at he
  framing hf := by simp [hs] at hf
  repeating hf := by simp [hs] at hf
  request h := by simp [hr] at h
  status := hstatus
  held := hheld

theorem Coherent.complete {s : State} (h : Coherent s) {e : ErrCode} (he : e = .ok ∨ e = .lineWriteFailed ∨ e = .cancelled) :
    Coherent (complete e s) := by
  refine coherent_of_idle rfl rfl rfl ((statusLegal_iff _).mpr ⟨((statusLegal_iff s).mp h.status).1, ?_⟩) h.held
  rcases he with rfl | rfl | rfl <;> simp [TxStatusLegal, Machine.complete]

theorem Coherent.rejectTx {s : State} (h : Coherent s) (hs : s.seqState = .idle) (p : BitVec 4) : Coherent (rejectTx p s) :=
  coherent_of_idle hs (h.idle hs) (h.slReq_of_ne_framing (by simp [hs]))
    ((statusLegal_iff _).mpr ⟨((statusLegal_iff s).mp h.status).1, by simp [TxStatusLegal]⟩) h.held

theorem Coherent.acceptTx {s : State} (h : Coherent s) {p : BitVec 4} (n : BitVec 16) (hs : s.seqState = .idle)
    (hp : protoSupported p = true) (hcw : s.cw.hasReserved = false) : Coherent (acceptTx p n s) where
  busy _ := ⟨⟨hp, hcw⟩, rfl, rfl, rfl⟩
  idle _ := rfl
  exporting _ := rfl
  framing hf := by simp at hf
  repeating hf := by simp at hf
  request hr := by simp [h.slReq_of_ne_framing (s := s) (by simp [hs])] at hr
  status := (statusLegal_iff _).mpr ⟨((statusLegal_iff s).mp h.status).1, by simp [TxStatusLegal]⟩
  held := h.held

theorem Coherent.requestCancel {s : State} (h : Coherent s) : Coherent (requestCancel s) := by
  unfold Machine.requestCancel
  split_ifs with hb
  · exact ⟨h.busy, fun hi => absurd hi hb, h.exporting, h.framing, h.repeating, h.request, h.status, h.held⟩
  · exact h

theorem Coherent.beginTurn {s : State} (h : Coherent s) : Coherent (beginTurn s) := by
  have ht : Coherent { s with turns := s.turns.tail } := h.frame ..
  unfold Machine.beginTurn sampleCancel
  split_ifs
  · exact ht.requestCancel
  · exact ht

theorem Coherent.transmitterEffect {s t : State} (h : Coherent s) (ht : TransmitterEffect s t) : Coherent t := by
  cases ht with
  | nothing => exact h
  | hold _ hi => exact h.withHeld hi
  | reject hidle => exact h.rejectTx hidle _
  | accept hidle hp hcw => exact h.acceptTx _ hidle hp hcw
  | cancel => exact h.requestCancel

theorem Coherent.commandEffect {s t : State} (h : Coherent s) (ht : CommandEffect s t) : Coherent t := by
  cases ht with
  | encode c e he => exact (h.withEncStat he).frame c ..
  | transmitter ht => exact h.transmitterEffect ht

/-! ## The position and the count of writes -/

/-- The prim at a position: a symbol below the length, Sync at it. -/
theorem lastPhase_of_currentPrim {s : State} {prim : Prim} (h : currentPrim s = some prim) :
    lastPhase prim = if s.pos.i < s.shadow.cw.len then 3 else 1 := by
  unfold currentPrim at h
  split_ifs at h ⊢
  · obtain ⟨x, -, rfl⟩ := Option.map_eq_some_iff.mp h
    rfl
  · cases h
    rfl

theorem writesAt_lt (n i : BitVec 5) (r : BitVec 16) (ph : BitVec 2) :
    writesAt n.toNat r.toNat i.toNat ph.toNat 0 + 1 < 2 ^ 32 := by
  have hr := r.isLt
  have hn := n.isLt
  have hmul : r.toNat * (4 * n.toNat + 2) ≤ 2 ^ 16 * (4 * 31 + 2) := Nat.mul_le_mul (by omega) (by omega)
  simp only [writesAt, frameWrites]
  omega

/-! ## Operations inside a frame -/

theorem coherent_of_framing {s : State} (hs : s.seqState = .framing) (hbusy : ShadowValid s ∧ StatusCleared s)
    (hframing : PositionValid s ∧ WritesCounted s ∧ LineFollowsPhase s ∧ s.exported = true)
    (hrequest : s.slReq = true → s.pos.sub = .write ∧ s.slVal = levelOf s.pos.ph)
    (hstatus : StatusLegal s) (hheld : heldLegal s.held = true) : Coherent s where
  busy _ := hbusy
  idle hi := by simp [hs] at hi
  exporting he := by simp [hs] at he
  framing _ := hframing
  repeating hf := by simp [hs] at hf
  request hr := ⟨hs, hrequest hr⟩
  status := hstatus
  held := hheld

/-- A frame begins at `I` = 0, with the writes of the frames before it counted and, unless it is the first, LINE low. -/
theorem Coherent.beginFrame {s : State} (h : Coherent s) (hb : s.seqState ≠ .idle) (hexported : s.exported = true)
    (hr : s.slReq = false) {r : BitVec 16} (hrep : r < s.shadow.rep)
    (hcount : s.wrcnt.toNat = r.toNat * frameWrites s.shadow.cw.len.toNat) (hline : r = 0 ∨ s.line = .low) :
    Coherent { s with pos := { r := r, i := 0, ph := 0, sub := .write }, seqState := .framing } := by
  refine coherent_of_framing rfl (h.busy hb) ⟨⟨hrep, Nat.zero_le _, fun _ => by simp⟩, ?_, ⟨by simp, by simp, ?_⟩, hexported⟩
    (fun hreq => by simp [hr] at hreq) h.status h.held
  · simp [WritesCounted, writesAt, hr, hcount]
  · intro _ _ hfirst
    exact hline.resolve_left fun hr0 => hfirst ⟨hr0, rfl, rfl⟩

theorem Coherent.issueRequest {s : State} (h : Coherent s) (hs : s.seqState = .framing) (hsub : s.pos.sub = .write)
    (hr : s.slReq = false) : Coherent (issueRequest s) := by
  obtain ⟨hpos, hcount, hline, hexported⟩ := h.framing hs
  refine coherent_of_framing hs (h.busy (by simp [hs])) ⟨hpos, ?_, hline, hexported⟩ (fun _ => ⟨hsub, rfl⟩) h.status h.held
  have hlt := writesAt_lt s.shadow.cw.len s.pos.i s.pos.r s.pos.ph
  simp only [WritesCounted, hsub, hr, writesAt] at hcount hlt ⊢
  simp only [Machine.issueRequest, BitVec.toNat_add, hcount]
  simp
  omega

theorem Coherent.answerOk {s : State} (h : Coherent s) (hr : s.slReq = true) (cycles : Nat) : Coherent (answerOk cycles s) := by
  obtain ⟨hs, hsub, hval⟩ := h.request hr
  obtain ⟨hpos, hcount, -, hexported⟩ := h.framing hs
  refine coherent_of_framing hs (h.busy (by simp [hs])) ⟨hpos, ?_, ⟨fun _ => hval, by simp, by simp⟩, hexported⟩
    (by simp) h.status h.held
  simpa [WritesCounted, hr] using hcount

theorem Coherent.answerError {s : State} (h : Coherent s) : Coherent (answerError s) :=
  (h.frame ..).complete (by simp)

theorem toNat_add_one_of_lt {w : Nat} {x y : BitVec w} (h : x < y) : (x + 1).toNat = x.toNat + 1 := by
  have hxy : x.toNat < y.toNat := h
  have hy := y.isLt
  have hone : 1 < 2 ^ w := by omega
  have hsum : x.toNat + 1 < 2 ^ w := by omega
  rw [BitVec.toNat_add, BitVec.ofNat_eq_ofNat, BitVec.toNat_ofNat, Nat.mod_eq_of_lt hone, Nat.mod_eq_of_lt hsum]

theorem Coherent.slReq_of_wait {s : State} (h : Coherent s) (hsub : s.pos.sub = .wait) : s.slReq = false :=
  Bool.eq_false_iff.mpr fun hr => by simp [(h.request hr).2.1] at hsub

/-- At the end of a frame the position stays, and LINE is low (R165, R192). -/
theorem Coherent.endFrame {s : State} (h : Coherent s) (hs : s.seqState = .framing) (hsub : s.pos.sub = .wait)
    (hi : s.pos.i = s.shadow.cw.len) (hph : s.pos.ph = 1) : Coherent { s with seqState := .repeating } := by
  obtain ⟨hpos, hcount, ⟨hline, -, -⟩, hexported⟩ := h.framing hs
  have hr := h.slReq_of_wait hsub
  exact {
    busy := fun _ => h.busy (by simp [hs])
    idle := nofun
    exporting := nofun
    framing := nofun
    repeating := fun _ => ⟨hpos, hi, hph, hsub, hcount, by rw [hline hsub, hph]; rfl, hexported⟩
    request := fun hreq => by simp [hr] at hreq
    status := h.status
    held := h.held }

/-- At the end of a wait before the primitive's last phase (R192). -/
theorem Coherent.nextPhase {s : State} (h : Coherent s) (hs : s.seqState = .framing) (hsub : s.pos.sub = .wait)
    (hph : s.pos.ph < if s.pos.i < s.shadow.cw.len then 3 else 1) :
    Coherent { s with pos := { s.pos with ph := s.pos.ph + 1, sub := .write } } := by
  obtain ⟨⟨hrep, hi, -⟩, hcount, ⟨hline, -, -⟩, hexported⟩ := h.framing hs
  have hr := h.slReq_of_wait hsub
  have hstep : ∀ ph : BitVec 2, ph < 3 →
      ((ph + 1).getLsbD 0 = true → levelOf ph = .high) ∧ ((ph + 1).getLsbD 0 = false → levelOf ph = .low) := by decide
  obtain ⟨hodd, heven⟩ := hstep s.pos.ph (by split_ifs at hph <;> bv_omega)
  rw [← hline hsub] at hodd heven
  refine coherent_of_framing hs (h.busy (by simp [hs])) ⟨⟨hrep, hi, fun hend => ?sync⟩, ?count,
    ⟨nofun, fun _ => hodd, fun _ hbit _ => heven hbit⟩, hexported⟩ (by simp [hr]) h.status h.held
  case sync =>
    rw [if_neg (by simp [show s.pos.i = _ from hend])] at hph
    change s.pos.ph + 1 ≤ 1
    bv_omega
  case count =>
    simp [WritesCounted, hsub, hr, writesAt] at hcount
    simp only [WritesCounted, writesAt, toNat_add_one_of_lt hph, hr, hcount]
    simp [Nat.add_assoc]

/-- At the end of a symbol's last wait (R192). -/
theorem Coherent.nextPrim {s : State} (h : Coherent s) (hs : s.seqState = .framing) (hsub : s.pos.sub = .wait)
    (hi : s.pos.i < s.shadow.cw.len) (hph : s.pos.ph = 3) :
    Coherent { s with pos := { s.pos with i := s.pos.i + 1, ph := 0, sub := .write } } := by
  obtain ⟨⟨hrep, -, -⟩, hcount, ⟨hline, -, -⟩, hexported⟩ := h.framing hs
  have hr := h.slReq_of_wait hsub
  have hnext := toNat_add_one_of_lt hi
  have hlow : s.line = .low := by rw [hline hsub, hph]; rfl
  refine coherent_of_framing hs (h.busy (by simp [hs])) ⟨⟨hrep, ?inside, fun _ => by simp⟩, ?count,
    ⟨nofun, by simp, fun _ _ _ => hlow⟩, hexported⟩ (by simp [hr]) h.status h.held
  case inside => exact hnext.trans_le hi
  case count =>
    simp [WritesCounted, hsub, hr, hph, writesAt] at hcount
    simp only [WritesCounted, writesAt, hnext, hr, hcount]
    simp
    ring

theorem Coherent.advance {s : State} {prim : Prim} (h : Coherent s) (hs : s.seqState = .framing) (hsub : s.pos.sub = .wait)
    (hprim : currentPrim s = some prim) : Coherent (advance prim s) := by
  obtain ⟨⟨-, hi, hph⟩, -, -, -⟩ := h.framing hs
  have hlast := lastPhase_of_currentPrim hprim
  rcases advance_cases prim s with ⟨hphase, he⟩ | ⟨hphase, hilt, he⟩ | ⟨hphase, hilt, he⟩ <;>
    rw [he] <;> rw [hlast] at hphase
  · exact h.nextPhase hs hsub hphase
  · rw [if_pos hilt] at hphase
    exact h.nextPrim hs hsub hilt (by bv_omega)
  · rw [if_neg hilt] at hphase
    have hend : s.pos.i = s.shadow.cw.len := by bv_omega
    have := hph hend
    exact h.endFrame hs hsub hend (by bv_omega)

theorem Coherent.primStep {s t : State} {prim : Prim} (h : Coherent s) (hs : s.seqState = .framing)
    (hprim : currentPrim s = some prim) (ht : primStep prim s = .next t) : Coherent t := by
  rcases primStep_next ht with ⟨-, -, rfl⟩ | ⟨-, -, -, rfl⟩ | ⟨hsub, hr, -, -, rfl⟩ | ⟨-, -, rfl⟩ | ⟨k, hsub, -, -, rfl⟩
  · exact h
  · exact h.complete (by simp)
  · exact h.issueRequest hs hsub hr
  · exact h.complete (by simp)
  · exact Coherent.advance (s := emit _ { s with tmr := 0 }) (h.frame ..) hs hsub hprim

theorem Coherent.exportStep {s : State} (h : Coherent s) (hs : s.seqState = .exporting) : Coherent (exportStep s) := by
  have hr := h.slReq_of_ne_framing (by simp [hs])
  have hexport : Coherent (emit .exported (activateLine s)) :=
    ⟨h.busy, h.idle, h.exporting, by simp [hs], by simp [hs], h.request, h.status, h.held⟩
  rcases exportStep_cases s with ⟨-, he⟩ | ⟨-, -, he⟩ | ⟨-, hrep, he⟩ <;> rw [he]
  · exact h.complete (by simp)
  · exact hexport.complete (by simp)
  · refine hexport.beginFrame (by simp [hs]) rfl hr ?_ ?_ (.inl rfl)
    · simp
      bv_omega
    · simp [h.exporting hs]

theorem Coherent.repeatStep {s : State} (h : Coherent s) (hs : s.seqState = .repeating) : Coherent (repeatStep s) := by
  obtain ⟨⟨hrep, -, -⟩, hi, hph, hsub, hcount, hline, hexported⟩ := h.repeating hs
  have hr := h.slReq_of_ne_framing (by simp [hs])
  rcases repeatStep_cases s with ⟨-, he⟩ | ⟨-, hnext, he⟩ | ⟨-, -, he⟩ <;> rw [he]
  · exact h.complete (by simp)
  · refine h.beginFrame (by simp [hs]) hexported hr hnext ?_ (.inr hline)
    simp [WritesCounted, writesAt, hsub, hi, hph] at hcount
    rw [toNat_add_one_of_lt hrep, hcount, frameWrites]
    ring
  · refine coherent_of_idle rfl rfl rfl ?_ h.held
    exact (statusLegal_iff _).mpr ⟨((statusLegal_iff s).mp h.status).1, by simp [TxStatusLegal]⟩

theorem Coherent.lineAnswer {s t : State} {a : Answer} (h : Coherent s) (ht : lineAnswer a s = .next t) : Coherent t := by
  rcases lineAnswer_next ht with ⟨-, rfl⟩ | ⟨-, -, rfl⟩ | ⟨prim, row, k, hr, -, -, -, -, rfl⟩
  · exact h
  · exact h.answerError
  · exact h.answerOk hr _

theorem Coherent.resetHardware {s : State} : Coherent (resetHardware s) :=
  coherent_of_idle rfl rfl rfl (by change StatusLegal State.reset; decide) rfl

theorem Coherent.clockTick {s : State} (h : Coherent s) : Coherent (clockTick s) := by
  unfold Machine.clockTick
  split_ifs
  · exact h.frame ..
  · exact h

/-! ## The statements -/

theorem isCommand_of_heldLegal {i : Instr} (h : heldLegal (some i) = true) : isCommand i = true := by
  cases i with
  | tx | txr => rfl
  | _ => cases h

theorem Coherent.turnEffect {turn : Turn} {u t : State} (h : Coherent u) (ht : TurnEffect u turn t) : Coherent t := by
  cases ht with
  | access c rdata prog => exact h.frame ..
  | run prog hi hexec =>
    have hnone : Coherent { u with held := none } := h.withHeld rfl
    have hbefore : Coherent { u with held := none, hostProg := prog } := hnone.frame ..
    rcases hi with ⟨-, hi⟩ | ⟨hheld, -⟩
    · exact hbefore.commandEffect (commandEffect_of_exec hi hexec)
    · exact hbefore.commandEffect (commandEffect_of_exec (isCommand_of_heldLegal (hheld ▸ h.held)) hexec)
  | idle => exact h
  | exporting hs => exact h.exportStep hs
  | framing hs hprim hstep => exact h.primStep hs hprim hstep
  | repeating hs => exact h.repeatStep hs
  | unanswered => exact h
  | answered _ hanswer => exact Coherent.lineAnswer (h.frame ..) hanswer
  | pin level => exact h.frame ..
  | reset => exact .resetHardware
  | clock => exact h.clockTick

/-- Settles O6: the turn of each agent keeps the invariant of the state in which it begins. -/
theorem stepKeepsCoherence : Obligations.StepKeepsCoherence :=
  fun _ _ h ht => h.beginTurn.turnEffect (turnEffect_of_step ht)

/-- Settles O5: after reset the machine is Idle with a legal status. -/
theorem resetIsCoherent : Obligations.ResetIsCoherent :=
  coherent_of_idle rfl rfl rfl (by decide) rfl

end Sys2Proof.Machine
end

section
/-! The command words of 30_encoding.md: what decides each opcode's decoding, which bits a format reads, and that decoding
and encoding are inverse up to the bits it does not read. -/

namespace Sys2Proof

/-! ## Decoding by opcode -/

@[simp] theorem statusBit_statusOfBit (b : BitVec 1) : statusBit (statusOfBit b) = b := by
  revert b
  decide

section Opcode

variable {w : Word}

theorem decodeCommand_of_op_zero (hop : w.extractLsb' 0 4 = 0) : decodeCommand w = .ok .nop := by
  rw [decodeCommand, hop]
  rfl

/-- The row of `ENC` that a family number selects (R108). -/
def encOfFam (fam p : BitVec 4) (st : Status) (m sl : BitVec 8) : Instr :=
  if fam = 0 then .encElro p st m sl
  else if fam = 1 then .encIt p st m sl
  else if fam = 2 then .encItPar p st m sl
  else if fam = 3 then .encDario p st m sl
  else if fam.toNat < 8 then .encUndefLow fam p st m sl
  else .encUndefHigh fam p st m sl

theorem decodeCommand_of_op_one (hop : w.extractLsb' 0 4 = 1) :
    decodeCommand w = .ok (encOfFam (w.extractLsb' 4 4) (w.extractLsb' 8 4) (statusOfBit (w.extractLsb' 12 1))
      (w.extractLsb' 16 8) (w.extractLsb' 24 8)) := by
  rw [decodeCommand, hop, encOfFam]
  simp only [apply_ite (Except.ok (ε := DecodeError))]
  rfl

theorem encode_encOfFam (fam p : BitVec 4) (st : Status) (m sl : BitVec 8) :
    encode (encOfFam fam p st m sl) = .command (formatE fam p st m sl) := by
  unfold encOfFam
  split_ifs with h0 h1 h2 h3
  · rw [h0, encode]
  · rw [h1, encode]
  · rw [h2, encode]
  · rw [h3, encode]
  · rfl
  · rfl

/-- Below 4 a family has its own row, so the rows of `ENC.UNDEF` get the families they encode (R146). -/
theorem wellFormed_encOfFam (fam p : BitVec 4) (st : Status) (m sl : BitVec 8) : WellFormed (encOfFam fam p st m sl) := by
  unfold encOfFam
  split_ifs with h0 h1 h2 h3 h8
  · rfl
  · rfl
  · rfl
  · rfl
  · exact decide_eq_true (by bv_omega)
  · exact decide_eq_true (by omega)

theorem encOfFam_encUndefLow {fam : BitVec 4} (h : 4 ≤ fam.toNat ∧ fam.toNat ≤ 7) (p : BitVec 4) (st : Status)
    (m sl : BitVec 8) : encOfFam fam p st m sl = .encUndefLow fam p st m sl := by
  obtain ⟨hge, hle⟩ := h
  rw [encOfFam, if_neg (by bv_omega), if_neg (by bv_omega), if_neg (by bv_omega), if_neg (by bv_omega), if_pos (by omega)]

theorem encOfFam_encUndefHigh {fam : BitVec 4} (h : 8 ≤ fam.toNat) (p : BitVec 4) (st : Status) (m sl : BitVec 8) :
    encOfFam fam p st m sl = .encUndefHigh fam p st m sl := by
  rw [encOfFam, if_neg (by bv_omega), if_neg (by bv_omega), if_neg (by bv_omega), if_neg (by bv_omega), if_neg (by omega)]

theorem decodeCommand_of_op_two (hop : w.extractLsb' 0 4 = 2) : decodeCommand w = .ok (.tx (w.extractLsb' 8 4)) := by
  rw [decodeCommand, hop]
  rfl

theorem decodeCommand_of_op_three (hop : w.extractLsb' 0 4 = 3) :
    decodeCommand w = .ok (.txr (w.extractLsb' 8 4) (w.extractLsb' 16 16)) := by
  rw [decodeCommand, hop]
  rfl

theorem decodeCommand_of_op_four (hop : w.extractLsb' 0 4 = 4) : decodeCommand w = .ok .cancel := by
  rw [decodeCommand, hop]
  rfl

/-- The reserved opcodes are no instruction (R106). -/
theorem decodeCommand_of_op_reserved (hop : 5 ≤ (w.extractLsb' 0 4).toNat) :
    decodeCommand w = .error (.reservedOpcode (w.extractLsb' 0 4)) := by
  have hne : ∀ k : BitVec 4, k.toNat < 5 → w.extractLsb' 0 4 ≠ k := fun k hk hw => by
    rw [hw] at hop
    omega
  simp only [decodeCommand, hne 0 (by decide), hne 1 (by decide), hne 2 (by decide), hne 3 (by decide), hne 4 (by decide),
    if_false]

theorem opcode_cases (op : BitVec 4) : op = 0 ∨ op = 1 ∨ op = 2 ∨ op = 3 ∨ op = 4 ∨ 5 ≤ op.toNat := by
  revert op
  decide

end Opcode

/-! ## The bits a format reads -/

theorem getLsbD_eq_of_extractLsb'_eq {v w : Word} {start len j : Nat} (h : v.extractLsb' start len = w.extractLsb' start len)
    (hj : start ≤ j ∧ j < start + len) : v.getLsbD j = w.getLsbD j := by
  have hbit := congrArg (fun x => x.getLsbD (j - start)) h
  have hlt : j - start < len := by omega
  have hadd : start + (j - start) = j := by omega
  simpa [hlt, hadd] using hbit

/-- A mask lets exactly the bits of some fields, each (start, length), through. -/
def Selects (mask : Word) (fields : List (Nat × Nat)) : Prop :=
  (∀ f ∈ fields, mask.extractLsb' f.1 f.2 = BitVec.allOnes f.2) ∧
  ∀ j : Fin 32, mask.getLsbD j = true → ∃ f ∈ fields, f.1 ≤ j ∧ j < f.1 + f.2

theorem Selects.masked_eq_iff {mask : Word} {fields : List (Nat × Nat)} (hmask : Selects mask fields) (v w : Word) :
    v &&& mask = w &&& mask ↔ ∀ f ∈ fields, v.extractLsb' f.1 f.2 = w.extractLsb' f.1 f.2 := by
  obtain ⟨hones, hcover⟩ := hmask
  refine ⟨fun h f hf => ?field, fun h => ?masked⟩
  case field =>
    have hfield := extractLsb'_and_of_masked h f.1 f.2
    rwa [BitVec.extractLsb'_and, hones f hf, BitVec.and_allOnes, BitVec.and_allOnes] at hfield
  case masked =>
    apply BitVec.eq_of_getLsbD_eq
    intro j hj
    rw [BitVec.getLsbD_and, BitVec.getLsbD_and]
    cases hbit : mask.getLsbD j with
    | false => rw [Bool.and_false, Bool.and_false]
    | true =>
      obtain ⟨f, hf, hjf⟩ := hcover ⟨j, hj⟩ hbit
      rw [getLsbD_eq_of_extractLsb'_eq (h f hf) hjf]

end Sys2Proof

namespace Sys2Proof.Machine

/-- The fields that a command word's format reads, by opcode (R101 to R103, R106). -/
def formatFields (op : BitVec 4) : List (Nat × Nat) :=
  if op = 1 then [(0, 4), (4, 4), (8, 4), (12, 1), (16, 8), (24, 8)]
  else if op = 2 then [(0, 4), (8, 4)]
  else if op = 3 then [(0, 4), (8, 4), (16, 16)]
  else [(0, 4)]

/-- What is neither reserved nor ignored is read. -/
theorem reservedMask_selects (op : BitVec 4) : Selects (~~~reservedMask op) (formatFields op) := by
  unfold Selects reservedMask formatFields
  split_ifs <;> decide

theorem masked_eq_iff (op : BitVec 4) (v w : Word) :
    v &&& ~~~reservedMask op = w &&& ~~~reservedMask op ↔
      ∀ f ∈ formatFields op, v.extractLsb' f.1 f.2 = w.extractLsb' f.1 f.2 :=
  (reservedMask_selects op).masked_eq_iff v w

theorem op_mem_formatFields (op : BitVec 4) : (0, 4) ∈ formatFields op := by
  unfold formatFields
  split_ifs <;> simp

/-! ## The statements -/

/-- Settles O16: the decoder reads no bit outside the fields on which the words agree. -/
theorem reservedBitsAreIgnored : Obligations.ReservedBitsAreIgnored := by
  intro v w h
  rw [masked_eq_iff] at h
  have hop : v.extractLsb' 0 4 = w.extractLsb' 0 4 := h _ (op_mem_formatFields _)
  rcases opcode_cases (w.extractLsb' 0 4) with hw | hw | hw | hw | hw | hw
  · rw [decodeCommand_of_op_zero hw, decodeCommand_of_op_zero (hop.trans hw)]
  · simp only [hw, formatFields, if_true, List.forall_mem_cons] at h
    obtain ⟨-, hfam, hproto, hst, hmaster, hslave, -⟩ := h
    rw [decodeCommand_of_op_one hw, decodeCommand_of_op_one (hop.trans hw)]
    simp_all
  · simp only [hw, formatFields] at h
    rw [decodeCommand_of_op_two hw, decodeCommand_of_op_two (hop.trans hw)]
    simp_all
  · simp only [hw, formatFields] at h
    rw [decodeCommand_of_op_three hw, decodeCommand_of_op_three (hop.trans hw)]
    simp_all
  · rw [decodeCommand_of_op_four hw, decodeCommand_of_op_four (hop.trans hw)]
  · rw [decodeCommand_of_op_reserved hw, decodeCommand_of_op_reserved (hop ▸ hw), hop]

/-- The word of an `ENC` is read back (R101, R108). -/
theorem decodeCommand_formatE_eq (fam p : BitVec 4) (st : Status) (m sl : BitVec 8) :
    decodeCommand (formatE fam p st m sl) = .ok (encOfFam fam p st m sl) := by
  rw [decodeCommand_of_op_one (formatE_op fam p st m sl), formatE_fam, formatE_proto, formatE_st, formatE_master,
    formatE_slave, statusOfBit_statusBit]

/-- Settles O14: each format's fields are read back from the word they build. -/
theorem decodeOfEncodeIsTheInstruction : Obligations.DecodeOfEncodeIsTheInstruction := by
  intro i hi
  cases i with
  | nop | cancel | zero | one | float | sync => rfl
  | encElro | encIt | encItPar | encDario => exact decodeCommand_formatE_eq ..
  | encUndefLow fam p st m sl =>
    exact (decodeCommand_formatE_eq ..).trans (congrArg _ (encOfFam_encUndefLow (of_decide_eq_true hi) p st m sl))
  | encUndefHigh fam p st m sl =>
    exact (decodeCommand_formatE_eq ..).trans (congrArg _ (encOfFam_encUndefHigh (of_decide_eq_true hi) p st m sl))
  | tx p =>
    refine (decodeCommand_of_op_two (formatT_op 2 p 0)).trans ?_
    rw [formatT_proto]
  | txr p n =>
    refine (decodeCommand_of_op_three (formatT_op 3 p n)).trans ?_
    rw [formatT_proto, formatT_repeat]

/-- Settles O15: in each row the encoder writes the fields that the decoder has read. -/
theorem encodeOfDecodeDiffersInReservedBitsOnly : Obligations.EncodeOfDecodeDiffersInReservedBitsOnly := by
  intro w i h
  simp only [masked_eq_iff]
  have hcommand : isCommand i = true := isCommand_of_decodeCommand h
  rcases opcode_cases (w.extractLsb' 0 4) with hw | hw | hw | hw | hw | hw
  · cases (decodeCommand_of_op_zero hw).symm.trans h
    refine ⟨rfl, hcommand, _, rfl, ?_⟩
    simp [hw, formatFields, formatC_op]
  · cases (decodeCommand_of_op_one hw).symm.trans h
    refine ⟨wellFormed_encOfFam .., hcommand, _, encode_encOfFam .., ?_⟩
    simp [hw, formatFields, formatE_op, formatE_fam, formatE_proto, formatE_st, formatE_master, formatE_slave]
  · cases (decodeCommand_of_op_two hw).symm.trans h
    refine ⟨rfl, hcommand, _, rfl, ?_⟩
    simp [hw, formatFields, formatT_op, formatT_proto]
  · cases (decodeCommand_of_op_three hw).symm.trans h
    refine ⟨rfl, hcommand, _, rfl, ?_⟩
    simp [hw, formatFields, formatT_op, formatT_proto, formatT_repeat]
  · cases (decodeCommand_of_op_four hw).symm.trans h
    refine ⟨rfl, hcommand, _, rfl, ?_⟩
    simp [hw, formatFields, formatC_op]
  · cases (decodeCommand_of_op_reserved hw).symm.trans h

/-- Settles O18: each word is evaluated. -/
theorem wordsDecodeAsTheSpecWritesThem : Obligations.WordsDecodeAsTheSpecWritesThem := by
  unfold Obligations.WordsDecodeAsTheSpecWritesThem
  decide

/-- Settles O19: the mask fixes OP, which alone decides these rows. -/
theorem transmitterRowsDecode : Obligations.TransmitterRowsDecode := by
  refine ⟨fun w h => decodeCommand_of_op_two (extractLsb'_of_masked h rfl),
    fun w h => decodeCommand_of_op_three (extractLsb'_of_masked h rfl),
    fun w h => decodeCommand_of_op_four (extractLsb'_of_masked h rfl), fun w h => ⟨_, decodeCommand_of_op_reserved ?_⟩⟩
  have hop : (w &&& 0xF).toNat = (w.extractLsb' 0 4).toNat := by
    simp [Nat.and_two_pow_sub_one_eq_mod w.toNat 4]
  rwa [← hop]

end Sys2Proof.Machine
end

section
/-! The assembler's lines (R109): which instruction a line stands for, operand by operand, and its word. -/

namespace Sys2Proof.Machine

/-! ## The word of a line -/

theorem encode_of_isCommand {i : Instr} (h : isCommand i = true) : ∃ w, encode i = .command w := by
  cases i with
  | zero | one | float | sync => cases h
  | _ => exact ⟨_, rfl⟩

theorem fits_toNat {n v : Nat} {x : BitVec n} (h : fits n v = some x) : x.toNat = v := by
  unfold fits at h
  split_ifs at h with hlt
  cases h
  rw [BitVec.toNat_ofNat, Nat.mod_eq_of_lt hlt]

/-- A line stands for well-formed host commands only. -/
theorem lineInstr_wellFormed {l : AsmLine} {i : Instr} (h : lineInstr l = some i) : WellFormed i ∧ isCommand i = true := by
  cases l with
  | nop | cancel => cases h; exact ⟨rfl, rfl⟩
  | tx p =>
    obtain ⟨p, -, rfl⟩ := Option.map_eq_some_iff.mp h
    exact ⟨rfl, rfl⟩
  | txr p n =>
    simp only [lineInstr] at h
    split at h <;> cases h
    exact ⟨rfl, rfl⟩
  | enc f p m sl st =>
    simp only [lineInstr] at h
    split at h <;> cases h
    cases f <;> exact ⟨rfl, rfl⟩
  | encFam k p m sl st =>
    simp only [lineInstr] at h
    split at h
    · split_ifs at h with h4 h8 <;> cases h
      · exact ⟨decide_eq_true (by omega), rfl⟩
      · exact ⟨decide_eq_true (by omega), rfl⟩
    · cases h

theorem assemble_eq_some_iff {l : AsmLine} {w : Word} :
    assemble l = some w ↔ ∃ i, lineInstr l = some i ∧ encode i = .command w := by
  unfold assemble
  cases lineInstr l with
  | none => simp
  | some i => cases hi : encode i <;> simp [hi]

/-! ## The operands -/

theorem numeralOf_concat (b : List Bool) (x : Bool) : numeralOf (b ++ [x]) = 2 * numeralOf b + x.toNat := by
  simp [numeralOf]

theorem numeralOf_lt (b : List Bool) : numeralOf b < 2 ^ b.length := by
  induction b using List.reverseRecOn with
  | nil => decide
  | append_singleton b x ih =>
    have := x.toNat_lt
    rw [numeralOf_concat, List.length_append, List.length_singleton, pow_succ]
    omega

/-- The first character is the most significant bit (R64). -/
theorem getElem?_eq_testBit_numeralOf (b : List Bool) {i : Nat} (hi : i < b.length) :
    b[i]? = some ((numeralOf b).testBit (b.length - 1 - i)) := by
  induction b using List.reverseRecOn with
  | nil => simp at hi
  | append_singleton b x ih =>
    rw [numeralOf_concat, List.length_append, List.length_singleton, Nat.add_sub_cancel]
    by_cases hlast : i = b.length
    · subst hlast
      cases x <;> simp
    · have hlt : i < b.length := by simp at hi; omega
      have hshift : b.length - i = b.length - 1 - i + 1 := by omega
      have hhalf : (2 * numeralOf b + x.toNat) / 2 = numeralOf b := by cases x <;> simp; omega
      rw [List.getElem?_append_left hlt, ih hlt, hshift, Nat.testBit_succ, hhalf]

/-- A quoted string of the family's width gives the same field for master and slave (R104, R109). -/
theorem field_bits_of_width {f : Option Family} {b : List Bool} (hf : f.bind stringWidth = some b.length) :
    masterField f (.bits b) = fits 8 (numeralOf b) ∧ slaveField f (.bits b) = fits 8 (numeralOf b) :=
  ⟨if_pos hf, if_pos hf⟩

theorem field_bits_of_ne_width {f : Option Family} {b : List Bool} (hf : f.bind stringWidth ≠ some b.length) :
    masterField f (.bits b) = none ∧ slaveField f (.bits b) = none :=
  ⟨if_neg hf, if_neg hf⟩

theorem field_bits {f : Family} {b : List Bool} (hf : stringWidth f = some b.length) (hb : b.length ≤ 8) :
    ∃ v : BitVec 8, masterField (some f) (.bits b) = some v ∧ slaveField (some f) (.bits b) = some v ∧
      v.toNat < 2 ^ b.length ∧ ∀ i, i < b.length → b[i]? = some (v.getLsbD (b.length - 1 - i)) := by
  have hlt := numeralOf_lt b
  have hbyte : numeralOf b < 2 ^ 8 := hlt.trans_le (Nat.pow_le_pow_right (by decide) hb)
  obtain ⟨hm, hs⟩ := field_bits_of_width (f := some f) hf
  rw [fits_of_lt hbyte] at hm hs
  refine ⟨_, hm, hs, ?_, fun i hi => ?_⟩
  · rwa [fits_toNat (fits_of_lt hbyte)]
  · rw [getElem?_eq_testBit_numeralOf b hi, BitVec.getLsbD, fits_toNat (fits_of_lt hbyte)]

/-! ## The statement -/

theorem field_bits_family {f : Family} {n : Nat} (hf : (f = .elro ∧ n = 5) ∨ (f = .dario ∧ n = 6)) :
    stringWidth f = some n ∧ n ≤ 8 := by
  rcases hf with ⟨rfl, rfl⟩ | ⟨rfl, rfl⟩ <;> decide

/-! ## The instruction of a line whose operands are well formed -/

theorem lineInstr_tx (p : Nat) : lineInstr (.tx p) = if p < 16 then some (.tx (BitVec.ofNat 4 p)) else none :=
  apply_ite (Option.map Instr.tx) (p < 16) _ _

theorem lineInstr_txr (p n : Nat) :
    lineInstr (.txr p n) =
      if p < 16 ∧ n < 65536 then some (.txr (BitVec.ofNat 4 p) (BitVec.ofNat 16 n)) else none := by
  simp only [lineInstr]
  by_cases hp : p < 16
  · by_cases hn : n < 65536
    · rw [fits_of_lt hp, fits_of_lt hn, if_pos ⟨hp, hn⟩]
    · rw [fits_of_lt hp, fits_of_ge (Nat.le_of_not_lt hn), if_neg fun h => hn h.2]
  · rw [fits_of_ge (Nat.le_of_not_lt hp), if_neg fun h => hp h.1]

section Enc

variable {p : Nat} {m sl : AddrOperand} {mv sv : BitVec 8}

theorem lineInstr_enc {f : Family} (hp : p < 16) (hm : masterField (some f) m = some mv)
    (hs : slaveField (some f) sl = some sv) (st : Status) :
    lineInstr (.enc f p m sl st) = some (encInstr f (BitVec.ofNat 4 p) st mv sv) := by
  rw [lineInstr, fits_of_lt hp, hm, hs]

theorem lineInstr_enc_eq_none {f : Family} (st : Status)
    (h : 15 < p ∨ masterField (some f) m = none ∨ slaveField (some f) sl = none) : lineInstr (.enc f p m sl st) = none := by
  simp only [lineInstr]
  rcases h with hp | hm | hs
  · rw [fits_of_ge hp]
  · cases fits 4 p <;> simp [hm]
  · cases fits 4 p <;> cases masterField (some f) m <;> simp [hs]

/-- The number of `enc.fam` selects its row as FAM does, from 4 on (R109, R146). -/
theorem lineInstr_encFam (hp : p < 16) (hm : masterField none m = some mv) (hs : slaveField none sl = some sv) (k : Nat)
    (st : Status) :
    lineInstr (.encFam k p m sl st) =
      if k < 4 ∨ 15 < k then none
      else if k < 8 then some (.encUndefLow (BitVec.ofNat 4 k) (BitVec.ofNat 4 p) st mv sv)
      else some (.encUndefHigh (BitVec.ofNat 4 k) (BitVec.ofNat 4 p) st mv sv) := by
  simp only [lineInstr]
  by_cases hk : k < 16
  · have hle : ¬15 < k := by omega
    have hfits : fits 4 k = some (BitVec.ofNat 4 k) := fits_of_lt hk
    rw [hfits, fits_of_lt hp, hm, hs]
    simp only [fits_toNat hfits, hle, or_false]
  · rw [fits_of_ge (Nat.le_of_not_lt hk), if_pos (.inr (by omega))]

theorem lineInstr_encFam_eq_none (k : Nat) (st : Status) (h : 15 < p ∨ masterField none m = none ∨ slaveField none sl = none) :
    lineInstr (.encFam k p m sl st) = none := by
  simp only [lineInstr]
  cases fits 4 k
  · rfl
  rcases h with hp | hm | hs
  · rw [fits_of_ge hp]
  · cases fits 4 p <;> simp [hm]
  · cases fits 4 p <;> cases masterField none m <;> simp [hs]

end Enc

/-! ## The letters -/

theorem masterField_letter_it :
    ∀ i < 16, masterField (some .it) (.letter (Char.ofNat (65 + i))) = some (BitVec.ofNat 8 i) := by decide

theorem masterField_letter_itPar :
    ∀ i < 16, masterField (some .itPar) (.letter (Char.ofNat (65 + i))) = if i < 4 then some (BitVec.ofNat 8 i) else none := by
  decide

/-- A character outside A to P is no address of any family (R104). -/
theorem masterField_letter_eq_none (f : Option Family) {c : Char} (hc : c.toNat < 65 ∨ 80 < c.toNat) :
    masterField f (.letter c) = none := by
  cases f with
  | none => rfl
  | some f => cases f <;> simp [masterField, letterIndex_eq_none hc]

/-! ## The statement -/

/-- Settles O21: the word is the encoding of the line's instruction; each operand clause is a lemma above. -/
theorem assembledLineDecodesToItsInstruction : Obligations.AssembledLineDecodesToItsInstruction := by
  refine ⟨fun l w h => ?word, fun l i h => ?line, ⟨rfl, rfl⟩, lineInstr_tx, lineInstr_txr,
    fun p m sl st mv sv hp => ⟨fun hm hs => lineInstr_enc hp hm hs st, fun hm hs => lineInstr_enc hp hm hs st,
      fun hm hs => lineInstr_enc hp hm hs st, fun hm hs => lineInstr_enc hp hm hs st,
      fun k hm hs => lineInstr_encFam hp hm hs k st⟩,
    fun f k p m sl st => ⟨lineInstr_enc_eq_none st, lineInstr_encFam_eq_none k st⟩,
    fun f n => ⟨rfl, rfl⟩, fun f n b hf => ⟨?width, ?otherWidth⟩, fun f b hf => field_bits_of_ne_width ?noWidth,
    fun i => ⟨masterField_letter_it i, fun hi => ?parLetter, fun hge hi => ?noLetter⟩,
    fun f c => ⟨masterField_letter_eq_none f, ?noFamily, rfl⟩⟩
  case word =>
    obtain ⟨i, hi, hw⟩ := assemble_eq_some_iff.mp h
    have hdecode := decodeOfEncodeIsTheInstruction i (lineInstr_wellFormed hi).1
    rw [hw] at hdecode
    exact ⟨i, hi, hdecode⟩
  case line =>
    obtain ⟨w, hw⟩ := encode_of_isCommand (lineInstr_wellFormed h).2
    exact ⟨w, assemble_eq_some_iff.mpr ⟨i, h, hw⟩, hw⟩
  case width =>
    obtain ⟨hwidth, hn⟩ := field_bits_family hf
    rintro rfl
    exact field_bits hwidth hn
  case otherWidth =>
    intro hb
    refine field_bits_of_ne_width fun hwidth => hb ?_
    exact (Option.some.inj ((field_bits_family hf).1.symm.trans hwidth)).symm
  case noWidth => rcases hf with rfl | rfl | rfl <;> simp [stringWidth]
  case parLetter => exact (masterField_letter_itPar i (by omega)).trans (if_pos hi)
  case noLetter => exact (masterField_letter_itPar i hi).trans (if_neg (Nat.not_lt.mpr hge))
  case noFamily => rintro (rfl | rfl | rfl) <;> rfl

end Sys2Proof.Machine
end

section
/-! The codeword register as words: the slots in CW_LO and CW_HI, what a write reads back, and on which fields a register's
reading depends. -/

namespace Sys2Proof.Machine

/-! ## Slots in words -/

theorem cwLoWord_getLsbD (c : Codeword) (j : Nat) :
    (cwLoWord c).getLsbD j = (decide (j < 32) && (c.slot (j / 2)).getLsbD (j % 2)) :=
  packSlots_getLsbD 16 c.slot j

theorem cwHiWord_getLsbD (c : Codeword) (j : Nat) :
    (cwHiWord c).getLsbD j = (decide (j < 30) && (c.slot (j / 2 + 16)).getLsbD (j % 2)) := by
  refine (BitVec.getLsbD_append (x := (0 : BitVec 2)) (y := packSlots 15 fun i => c.slot (i + 16)) (i := j)).trans ?_
  rw [packSlots_getLsbD]
  split_ifs with hj
  · rfl
  · simp [show ¬j < 30 from hj]

/-- Slot i is at bits 2i+1 and 2i of CW_LO (R65). -/
theorem cwLoWord_extractLsb' (c : Codeword) {i : Nat} (hi : i < 16) : (cwLoWord c).extractLsb' (2 * i) 2 = c.slot i := by
  apply BitVec.eq_of_getLsbD_eq
  intro j hj
  have hdiv : (2 * i + j) / 2 = i := by omega
  have hmod : (2 * i + j) % 2 = j := by omega
  have hlt : 2 * i + j < 32 := by omega
  rw [BitVec.getLsbD_extractLsb', cwLoWord_getLsbD, hdiv, hmod, decide_eq_true hj, decide_eq_true hlt, Bool.true_and,
    Bool.true_and]

/-- Slot i + 16 is at bits 2i+1 and 2i of CW_HI (R65). -/
theorem cwHiWord_extractLsb' (c : Codeword) {i : Nat} (hi : i < 15) :
    (cwHiWord c).extractLsb' (2 * i) 2 = c.slot (i + 16) := by
  apply BitVec.eq_of_getLsbD_eq
  intro j hj
  have hdiv : (2 * i + j) / 2 = i := by omega
  have hmod : (2 * i + j) % 2 = j := by omega
  have hlt : 2 * i + j < 30 := by omega
  rw [BitVec.getLsbD_extractLsb', cwHiWord_getLsbD, hdiv, hmod, decide_eq_true hj, decide_eq_true hlt, Bool.true_and,
    Bool.true_and]

theorem cwLenWord_extractLsb' (c : Codeword) : (cwLenWord c).extractLsb' 0 5 = c.len := by
  apply BitVec.eq_of_getLsbD_eq
  intro j hj
  have hlt : j < 32 := by omega
  simp [cwLenWord_eq_zeroExtend, hj, hlt]

/-! ## Reading back a write -/

theorem cwLenWord_writeLen (c : Codeword) (v : Word) : cwLenWord (c.writeLen v) = v &&& 0x0000001F := by
  have hmask : ∀ j < 32, (0x0000001F : Word).getLsbD j = decide (j < 5) := by decide
  apply BitVec.eq_of_getLsbD_eq
  intro j hj
  rw [BitVec.getLsbD_and, hmask j hj, cwLenWord_eq_zeroExtend, writeLen_len]
  simp [hj, Bool.and_comm]

/-- Two bits of a word, found again at their place. -/
theorem getLsbD_extractLsb'_pair (v : Word) (j : Nat) : (v.extractLsb' (2 * (j / 2)) 2).getLsbD (j % 2) = v.getLsbD j := by
  have hlt : j % 2 < 2 := Nat.mod_lt j (by decide)
  rw [BitVec.getLsbD_extractLsb', Nat.div_add_mod, decide_eq_true hlt, Bool.true_and]

theorem cwLoWord_writeLo (c : Codeword) (v : Word) : cwLoWord (c.writeLo v) = v := by
  apply BitVec.eq_of_getLsbD_eq
  intro j hj
  have hslot : j / 2 < 16 := by omega
  rw [cwLoWord_getLsbD, writeLo_slot c v (by omega), if_pos hslot, getLsbD_extractLsb'_pair, decide_eq_true hj, Bool.true_and]

theorem cwHiWord_writeHi (c : Codeword) (v : Word) : cwHiWord (c.writeHi v) = v &&& 0x3FFFFFFF := by
  have hmask : ∀ j < 32, (0x3FFFFFFF : Word).getLsbD j = decide (j < 30) := by decide
  apply BitVec.eq_of_getLsbD_eq
  intro j hj
  rw [BitVec.getLsbD_and, hmask j hj, cwHiWord_getLsbD]
  by_cases hlt : j < 30
  · rw [writeHi_slot c v (by omega), if_neg (by omega), Nat.add_sub_cancel, getLsbD_extractLsb'_pair, Bool.and_comm]
  · simp [hlt]

/-! ## What a reading depends on -/

/-- A register reads as before where its own word is as before (R21). -/
theorem readReg_congr {s t : State} (k : BitVec 4) (hlen : k = 1 → cwLenWord t.cw = cwLenWord s.cw)
    (hlo : k = 2 → cwLoWord t.cw = cwLoWord s.cw) (hhi : k = 3 → cwHiWord t.cw = cwHiWord s.cw)
    (henc : k = 4 → t.encStat = s.encStat) (htx : k = 5 → txStatWord t = txStatWord s) (hcount : k = 6 → t.wrcnt = s.wrcnt)
    (hpos : k = 7 → t.pos = s.pos) : readReg k t = readReg k s := by
  unfold readReg
  split_ifs with h1 h2 h3 h4 h5 h6 h7
  exacts [hlen h1, hlo h2, hhi h3, congrArg encStatWord (henc h4), htx h5, hcount h6, congrArg txPosWord (hpos h7), rfl]

theorem readReg_withCw {s : State} {c : Codeword} (k : BitVec 4) (hlen : k = 1 → cwLenWord c = cwLenWord s.cw)
    (hlo : k = 2 → cwLoWord c = cwLoWord s.cw) (hhi : k = 3 → cwHiWord c = cwHiWord s.cw) :
    readReg k { s with cw := c } = readReg k s :=
  readReg_congr k hlen hlo hhi (fun _ => rfl) (fun _ => rfl) (fun _ => rfl) (fun _ => rfl)

theorem cwLenWord_writeLo (c : Codeword) (v : Word) : cwLenWord (c.writeLo v) = cwLenWord c := by
  rw [cwLenWord, writeLo_len, cwLenWord]

theorem cwLenWord_writeHi (c : Codeword) (v : Word) : cwLenWord (c.writeHi v) = cwLenWord c := by
  rw [cwLenWord, writeHi_len, cwLenWord]

theorem cwLoWord_writeHi (c : Codeword) (v : Word) : cwLoWord (c.writeHi v) = cwLoWord c :=
  packSlots_congr fun i hi => (writeHi_slot c v (by omega)).trans (if_pos hi)

theorem cwHiWord_writeLo (c : Codeword) (v : Word) : cwHiWord (c.writeLo v) = cwHiWord c :=
  congrArg ((0 : BitVec 2) ++ ·) (packSlots_congr fun i hi => (writeLo_slot c v (by omega)).trans (if_neg (by omega)))

@[simp] theorem hostWrite_len (v : Word) (s : State) : hostWrite 1 v s = { s with cw := s.cw.writeLen v } := rfl
@[simp] theorem hostWrite_lo (v : Word) (s : State) : hostWrite 2 v s = { s with cw := s.cw.writeLo v } := rfl
@[simp] theorem hostWrite_hi (v : Word) (s : State) : hostWrite 3 v s = { s with cw := s.cw.writeHi v } := rfl

/-- A write changes the reading of no other register (R62). -/
theorem readReg_hostWrite_of_ne {j k : BitVec 4} (hjk : j ≠ k) (v : Word) (s : State) :
    readReg j (hostWrite k v s) = readReg j s := by
  unfold hostWrite
  split_ifs with h1 h2 h3
  · subst h1
    exact readReg_withCw j (fun h => absurd h hjk) (fun _ => rfl) (fun _ => rfl)
  · subst h2
    exact readReg_withCw j (fun _ => cwLenWord_writeLo s.cw v) (fun h => absurd h hjk) (fun _ => cwHiWord_writeLo s.cw v)
  · subst h3
    exact readReg_withCw j (fun _ => cwLenWord_writeHi s.cw v) (fun _ => cwLoWord_writeHi s.cw v) (fun h => absurd h hjk)
  · rfl

theorem hostWrite_of_four_le {k : BitVec 4} (hk : 4 ≤ k.toNat) (v : Word) (s : State) : hostWrite k v s = s := by
  rw [hostWrite, if_neg, if_neg, if_neg]
  all_goals
    rintro rfl
    exact absurd hk (by decide)

/-! ## The statements -/

/-- Settles O33: each word reads back under its mask, and each write leaves the slots the other words read. -/
theorem registerWritesReadBack : Obligations.RegisterWritesReadBack :=
  fun s v => ⟨cwLenWord_writeLen s.cw v, cwLoWord_writeLo s.cw v, cwHiWord_writeHi s.cw v,
    fun _ _ hjk => readReg_hostWrite_of_ne hjk v s, fun _ hk => hostWrite_of_four_le hk v s⟩

/-- Settles O35: the words of the two registers, two bits at a time. -/
theorem symbolsStandInPackedOrder : Obligations.SymbolsStandInPackedOrder := by
  refine fun s i => ⟨fun hi => ?lo, fun hge hi => ?hi⟩
  case lo =>
    rw [Nat.mod_eq_of_lt hi]
    exact cwLoWord_extractLsb' s.cw hi
  case hi =>
    have hmod : i % 16 = i - 16 := by omega
    have hslot := cwHiWord_extractLsb' s.cw (i := i - 16) (by omega)
    rw [Nat.sub_add_cancel hge] at hslot
    rw [hmod]
    exact hslot

/-- The three writes of a codeword register's own words give that register. -/
theorem codeword_of_writes (c d : Codeword) :
    ((d.writeLen (cwLenWord c)).writeLo (cwLoWord c)).writeHi (cwHiWord c) = c := by
  apply codeword_ext
  · rw [writeHi_len, writeLo_len, writeLen_len, cwLenWord_extractLsb']
  · intro i hi
    rw [writeHi_slot _ _ hi]
    split_ifs with hlo
    · rw [writeLo_slot _ _ hi, if_pos hlo, cwLoWord_extractLsb' c hlo]
    · rw [cwHiWord_extractLsb' c (by omega), Nat.sub_add_cancel (Nat.le_of_not_lt hlo)]

/-- Settles O37: `ldcw` writes the three words of the codeword's own register. -/
theorem loadedCodewordIsHeld : Obligations.LoadedCodewordIsHeld := by
  intro w s hw
  refine ⟨_, _, _, if_pos hw, ?_⟩
  simp only [hostWrite_len, hostWrite_lo, hostWrite_hi, codeword_of_writes]

end Sys2Proof.Machine
end

section
/-! The encoder over its tables (40_encoder.md): the Intertechno codewords and their alphabets, and what every `ENC`
depends on and leaves unchanged. -/

namespace Sys2Proof

theorem decodeCommand_encIt {w : Word} (h : w &&& 0xFF = 0x11) :
    decodeCommand w = .ok (.encIt (w.extractLsb' 8 4) (if w.getLsbD 12 then .on else .off)
      (w.extractLsb' 16 8) (w.extractLsb' 24 8)) := by
  have hfam : w.extractLsb' 4 4 = 1 := extractLsb'_of_masked h rfl
  simp [decodeCommand_formatE (extractLsb'_of_masked h rfl), hfam]

theorem decodeCommand_encItPar {w : Word} (h : w &&& 0xFF = 0x21) :
    decodeCommand w = .ok (.encItPar (w.extractLsb' 8 4) (if w.getLsbD 12 then .on else .off)
      (w.extractLsb' 16 8) (w.extractLsb' 24 8)) := by
  have hfam : w.extractLsb' 4 4 = 2 := extractLsb'_of_masked h rfl
  simp [decodeCommand_formatE (extractLsb'_of_masked h rfl), hfam]

end Sys2Proof

namespace Sys2Proof.Machine

/-! ## Table entries in a codeword -/

theorem exec_encIt (p : BitVec 4) (st : Status) (m sl : BitVec 8) (s : State) :
    exec (.encIt p st m sl) s = .next (encFrame .it (itCodeword (itTabOf s.tables) m sl st) p m sl s) := rfl

theorem exec_encItPar (p : BitVec 4) (st : Status) (m sl : BitVec 8) (s : State) :
    exec (.encItPar p st m sl) s =
      .next (encFrame .itPar (itParCodeword (parMOf s.tables) (parSOf s.tables) m sl st) p m sl s) := rfl

theorem tableEntry_of_lt {n k : Nat} (tab : Vector (Vector Symbol k) n) {i : Nat} (hi : i < n) :
    tableEntry tab i = tab[i].toList := by
  rw [tableEntry, Vector.getElem?_eq_getElem hi]

/-- An address outside the table has no entry, so whatever an entry's symbols satisfy holds there too. -/
theorem forall_mem_tableEntry {n k : Nat} {tab : Vector (Vector Symbol k) n} {P : Symbol → Prop}
    (h : ∀ (i : Fin n) (j : Fin k), P tab[i][j]) (i : Nat) : ∀ x ∈ tableEntry tab i, P x := by
  intro x hx
  by_cases hi : i < n
  · rw [tableEntry_of_lt tab hi, Vector.mem_toList_iff] at hx
    obtain ⟨j, hj, rfl⟩ := Vector.getElem_of_mem hx
    exact h ⟨i, hi⟩ ⟨j, hj⟩
  · rw [tableEntry, Vector.getElem?_eq_none (Nat.le_of_not_lt hi)] at hx
    cases hx

theorem tableEntry_length_le {n k : Nat} (tab : Vector (Vector Symbol k) n) (i : Nat) : (tableEntry tab i).length ≤ k := by
  unfold tableEntry
  cases tab[i]? <;> simp

/-- The slot codes of two table entries and what follows them. -/
theorem entryPair_code {a b j : Nat} (u : Vector Symbol a) (v : Vector Symbol b) (suffix : List Symbol) :
    (u.toList ++ v.toList ++ suffix)[j]?.map symbolCode =
      if h : j < a then some (symbolCode u[j])
      else if h : j < a + b then some (symbolCode v[j - a])
      else suffix[j - (a + b)]?.map symbolCode := by
  have hlen : (u.toList ++ v.toList).length = a + b := by simp
  by_cases hab : j < a + b
  · rw [List.getElem?_append_left (hlen.symm ▸ hab)]
    by_cases ha : j < a
    · simp [List.getElem?_append_left, ha]
    · simp [ha, hab, Nat.le_of_not_lt ha]
  · have ha : ¬j < a := by omega
    rw [List.getElem?_append_right (hlen.trans_le (Nat.le_of_not_lt hab)), hlen, dif_neg ha, dif_neg hab]

/-! ## Intertechno standard -/

theorem itCodeword_eq (tab : Vector (Vector Symbol 4) 16) {m sl : BitVec 8} (hm : m.toNat < 16) (hs : sl.toNat - 1 < 16)
    (st : Status) :
    itCodeword tab m sl st = tab[m.toNat].toList ++ tab[sl.toNat - 1].toList ++ ([.zero, .float] ++ itSuffix st) := by
  rw [itCodeword, tableEntry_of_lt tab hm, tableEntry_of_lt tab hs, List.append_assoc]

theorem itCodeword_code (tab : Vector (Vector Symbol 4) 16) {m sl : BitVec 8} (hm : m.toNat < 16) (hs : sl.toNat - 1 < 16)
    (st : Status) {j : Nat} (hj : j < 12) :
    (itCodeword tab m sl st)[j]?.map symbolCode = some (
      if h : j < 4 then symbolCode (tab[m.toNat][j])
      else if h : j < 8 then symbolCode (tab[sl.toNat - 1][j - 4])
      else if j = 8 then 0
      else if j = 9 ∨ j = 10 then 2
      else (if st = .on then 2 else 0)) := by
  rw [itCodeword_eq tab hm hs, entryPair_code]
  by_cases h4 : j < 4
  · rw [dif_pos h4, dif_pos h4]
  by_cases h8 : j < 8
  · rw [dif_neg h4, dif_neg h4, dif_pos h8, dif_pos h8]
  rw [dif_neg h4, dif_neg h4, dif_neg h8, dif_neg h8]
  obtain rfl | rfl | rfl | rfl : j = 8 ∨ j = 9 ∨ j = 10 ∨ j = 11 := by omega
  all_goals cases st <;> rfl

theorem itCodeword_length (tab : Vector (Vector Symbol 4) 16) {m sl : BitVec 8} (hm : m.toNat < 16) (hs : sl.toNat - 1 < 16)
    (st : Status) : (itCodeword tab m sl st).length = 12 := by
  rw [itCodeword_eq tab hm hs]
  cases st <;> simp [itSuffix]

/-- The printed table counts with the least significant bit first (R137, D10). -/
theorem itTab_entry :
    ∀ (k : Fin 16) (j : Fin 4), itTab[k][j] = if k.val.testBit j.val then Symbol.float else .zero := by
  decide

theorem itTabOf_reset {k j : Nat} (hk : k < 16) (hj : j < 4) :
    (itTabOf State.reset.tables)[k][j] = if k.testBit j then .float else .zero := by
  have htab : itTabOf State.reset.tables = itTab := itTabOf_default
  simp only [htab]
  exact itTab_entry ⟨k, hk⟩ ⟨j, hj⟩

/-- Settles O25: the tables' entries, the row's word, and the ends of `encFrame` over the Intertechno codeword. -/
theorem encItStoresItsCodewordOrRaises : Obligations.EncItStoresItsCodewordOrRaises := by
  refine ⟨fun t => ⟨by simp [itTabOf], by simp [itTabOf], by simp [itTabOf], fun k hk => itTabOf_open t hk⟩,
    fun k j hk hj => itTabOf_reset hk hj,
    fun w => decodeCommand_encIt, fun p st m sl s => ?ends⟩
  have hexec := exec_encIt p st m sl s
  refine ⟨fun hm hs hp hge => ?stores, encRaises_unsupportedProtocol hexec, fun hp hm => ?master, fun hp hm hs => ?slave⟩
  case stores =>
    exact encStores_codeword hexec hp (decide_eq_true (by omega)) (decide_eq_true (by omega))
      (itCodeword_length _ hm hs st) (by decide) fun _ => itCodeword_code _ hm hs st
  case master => exact encRaises_unsupportedMaster hexec hp (decide_eq_false (by omega))
  case slave => exact encRaises_unsupportedSlave hexec hp (decide_eq_true hm) (decide_eq_false (by omega))

/-! ## Intertechno PAR -/

theorem itParCodeword_eq (tabM : Vector (Vector Symbol 4) 4) (tabS : Vector (Vector Symbol 3) 3) {m sl : BitVec 8}
    (hm : m.toNat < 4) (hs : sl.toNat - 1 < 3) (st : Status) :
    itParCodeword tabM tabS m sl st =
      tabM[m.toNat].toList ++ tabS[sl.toNat - 1].toList ++ ([.float, .float, .float] ++ itParSuffix st) := by
  rw [itParCodeword, tableEntry_of_lt tabM hm, tableEntry_of_lt tabS hs, List.append_assoc]

theorem itParCodeword_length (tabM : Vector (Vector Symbol 4) 4) (tabS : Vector (Vector Symbol 3) 3) {m sl : BitVec 8}
    (hm : m.toNat < 4) (hs : sl.toNat - 1 < 3) (st : Status) : (itParCodeword tabM tabS m sl st).length = 12 := by
  rw [itParCodeword_eq tabM tabS hm hs]
  cases st <;> simp [itParSuffix]

theorem itParCodeword_code (tabM : Vector (Vector Symbol 4) 4) (tabS : Vector (Vector Symbol 3) 3) {m sl : BitVec 8}
    (hm : m.toNat < 4) (hs : sl.toNat - 1 < 3) (st : Status) {j : Nat} (hj : j < 12) :
    (itParCodeword tabM tabS m sl st)[j]?.map symbolCode = some (
      if h : j < 4 then symbolCode (tabM[m.toNat][j])
      else if h : j < 7 then symbolCode (tabS[sl.toNat - 1][j - 4])
      else if j < 10 then 2
      else (if st = .on then 2 else 0)) := by
  rw [itParCodeword_eq tabM tabS hm hs, entryPair_code]
  by_cases h4 : j < 4
  · rw [dif_pos h4, dif_pos h4]
  by_cases h7 : j < 7
  · rw [dif_neg h4, dif_neg h4, dif_pos h7, dif_pos h7]
  rw [dif_neg h4, dif_neg h4, dif_neg h7, dif_neg h7]
  obtain rfl | rfl | rfl | rfl | rfl : j = 7 ∨ j = 8 ∨ j = 9 ∨ j = 10 ∨ j = 11 := by omega
  all_goals cases st <;> rfl

/-- The default tables of PAR are one-hot (R141, D11). -/
theorem parM_entry : ∀ k j : Fin 4, parM[k][j] = if j.val = k.val then Symbol.one else .float := by decide

theorem parS_entry : ∀ k j : Fin 3, parS[k][j] = if j.val = k.val then Symbol.one else .float := by decide

theorem parMOf_reset {k j : Nat} (hk : k < 4) (hj : j < 4) :
    (parMOf State.reset.tables)[k][j] = if j = k then .one else .float := by
  have htab : parMOf State.reset.tables = parM := parMOf_default
  simp only [htab]
  exact parM_entry ⟨k, hk⟩ ⟨j, hj⟩

theorem parSOf_reset {k j : Nat} (hk : k < 3) (hj : j < 3) :
    (parSOf State.reset.tables)[k][j] = if j = k then .one else .float :=
  parS_entry ⟨k, hk⟩ ⟨j, hj⟩

/-- Settles O26: the tables' entries, the row's word, and the ends of `encFrame` over the PAR codeword. -/
theorem encItParStoresItsCodewordOrRaises : Obligations.EncItParStoresItsCodewordOrRaises := by
  refine ⟨fun t => ⟨by simp [parMOf], fun k hk => parMOf_open t hk, rfl⟩, fun k j hk hj => parMOf_reset hk hj,
    fun k j hk hj => parSOf_reset hk hj, fun w => decodeCommand_encItPar, fun p st m sl s => ?ends⟩
  have hexec := exec_encItPar p st m sl s
  refine ⟨fun hm hs hp hge => ?stores, encRaises_unsupportedProtocol hexec, fun hp hm => ?master, fun hp hm hs => ?slave⟩
  case stores =>
    exact encStores_codeword hexec hp (decide_eq_true (by omega)) (decide_eq_true (by omega))
      (itParCodeword_length _ _ hm hs st) (by decide) fun _ => itParCodeword_code _ _ hm hs st
  case master => exact encRaises_unsupportedMaster hexec hp (decide_eq_false (by omega))
  case slave => exact encRaises_unsupportedSlave hexec hp (decide_eq_true hm) (decide_eq_false (by omega))

/-! ## Alphabets -/

theorem bitmap_ne_one (b : Bool) : bitmap b ≠ .one := by cases b <;> decide

theorem one_notMem_elroCodeword (m sl : BitVec 8) (st : Status) : .one ∉ elroCodeword m sl st := by
  have hbits : ∀ b : List Bool, .one ∉ b.map bitmap := fun b h => by
    obtain ⟨x, -, hx⟩ := List.mem_map.mp h
    exact bitmap_ne_one x hx
  rw [elroCodeword, List.mem_append, List.mem_append]
  rintro ((h | h) | h)
  · exact hbits _ h
  · exact hbits _ h
  · cases st <;> simp [elroSuffix] at h

/-- Every entry of `IT_TAB` is one of the source's, or a configured one (R137). -/
theorem itTabOf_ne_one {t : EncTables} (ht : AlphabetKept t) (k : Fin 16) (j : Fin 4) : (itTabOf t)[k][j] ≠ .one := by
  obtain ⟨hopen, -, -⟩ := ht
  obtain ⟨k, hk⟩ := k
  match k with
  | 0 => fin_cases j <;> simp [itTabOf]
  | 1 => fin_cases j <;> simp [itTabOf]
  | k + 2 =>
    by_cases h13 : k < 13
    · simpa [itTabOf_open t h13] using hopen ⟨k, h13⟩ j
    · obtain rfl : k = 13 := by omega
      fin_cases j <;> simp [itTabOf]

/-- Entry 0 of `PAR_M` is the source's, the others are configured (R141). -/
theorem parMOf_ne_zero {t : EncTables} (ht : AlphabetKept t) (k j : Fin 4) : (parMOf t)[k][j] ≠ .zero := by
  obtain ⟨-, hopen, -⟩ := ht
  obtain ⟨k, hk⟩ := k
  match k with
  | 0 => fin_cases j <;> simp [parMOf]
  | k + 1 =>
    have h3 : k < 3 := by omega
    simpa [parMOf_open t h3] using hopen ⟨k, h3⟩ j

theorem one_notMem_itCodeword {t : EncTables} (ht : AlphabetKept t) (m sl : BitVec 8) (st : Status) :
    .one ∉ itCodeword (itTabOf t) m sl st := by
  have hentry : ∀ i, .one ∉ tableEntry (itTabOf t) i := fun i h =>
    forall_mem_tableEntry (P := (· ≠ .one)) (itTabOf_ne_one ht) i _ h rfl
  rw [itCodeword, List.mem_append, List.mem_append, List.mem_append]
  rintro (((h | h) | h) | h)
  · exact hentry _ h
  · exact hentry _ h
  · simp at h
  · cases st <;> simp [itSuffix] at h

/-- The address part of PAR, at most seven symbols, has no Zero (R148). -/
theorem zero_notMem_parAddress {t : EncTables} (ht : AlphabetKept t) (i j : Nat) :
    .zero ∉ tableEntry (parMOf t) i ++ tableEntry (parSOf t) j := by
  have ⟨_, _, hparS⟩ := ht
  rw [List.mem_append]
  rintro (h | h)
  · exact forall_mem_tableEntry (P := (· ≠ .zero)) (parMOf_ne_zero ht) i _ h rfl
  · exact forall_mem_tableEntry (P := (· ≠ .zero)) hparS j _ h rfl

theorem parAddress_length_le (t : EncTables) (i j : Nat) :
    (tableEntry (parMOf t) i ++ tableEntry (parSOf t) j).length ≤ 7 := by
  have hm := tableEntry_length_le (parMOf t) i
  have hs := tableEntry_length_le (parSOf t) j
  rw [List.length_append]
  omega

theorem one_notMem_drop_itParCodeword (t : EncTables) (m sl : BitVec 8) (st : Status) :
    .one ∉ (itParCodeword (parMOf t) (parSOf t) m sl st).drop 7 := by
  rw [itParCodeword, List.append_assoc, List.drop_append, List.drop_eq_nil_of_le (parAddress_length_le t _ _),
    List.nil_append]
  intro h
  have hsuffix := List.mem_of_mem_drop h
  cases st <;> simp [itParSuffix] at hsuffix

theorem zero_notMem_itParCodeword_on {t : EncTables} (ht : AlphabetKept t) (m sl : BitVec 8) :
    .zero ∉ itParCodeword (parMOf t) (parSOf t) m sl .on := by
  rw [itParCodeword, List.append_assoc, List.mem_append]
  rintro (h | h)
  · exact zero_notMem_parAddress ht _ _ h
  · simp [itParSuffix] at h

/-- With addresses in the table the off pair stands in the last two of twelve symbols (R140). -/
theorem itParCodeword_off {t : EncTables} (ht : AlphabetKept t) {m sl : BitVec 8} (hm : m.toNat < 4)
    (hs : sl.toNat - 1 < 3) :
    .zero ∉ (itParCodeword (parMOf t) (parSOf t) m sl .off).take 10 ∧
    (itParCodeword (parMOf t) (parSOf t) m sl .off).drop 10 = [.zero, .zero] := by
  have hlen : (tableEntry (parMOf t) m.toNat ++ tableEntry (parSOf t) (sl.toNat - 1) ++
      [Symbol.float, .float, .float]).length = 10 := by
    simp [tableEntry_of_lt _ hm, tableEntry_of_lt _ hs]
  rw [itParCodeword, List.take_left' hlen, List.drop_left' hlen, List.mem_append]
  refine ⟨?_, rfl⟩
  rintro (h | h)
  · exact zero_notMem_parAddress ht _ _ h
  · simp at h

/-- Settles O31: the symbols of each part of the codewords, over the entries of the tables. -/
theorem encoderAlphabets : Obligations.EncoderAlphabets :=
  ⟨one_notMem_elroCodeword, by decide, fun t m sl st ht =>
    ⟨one_notMem_itCodeword ht m sl st, one_notMem_drop_itParCodeword t m sl st, zero_notMem_itParCodeword_on ht m sl,
      fun hm _ hle => itParCodeword_off ht (by omega) (by omega)⟩⟩

/-! ## What every `ENC` depends on and leaves -/

theorem EncodeEnd.independent {i : Instr} (hi : EncodeEnd i) (s1 s2 : State) :
    ∃ t1 t2, exec i s1 = .next t1 ∧ exec i s2 = .next t2 ∧ t1.encStat = t2.encStat ∧ t1.encStat.done = true ∧
      (t1.encStat.err = .ok → s1.tables = s2.tables → t1.cw = t2.cw) ∧
      (t1.encStat.err ≠ .ok → t1.cw = s1.cw ∧ t2.cw = s2.cw) := by
  cases hi with
  | raises e which val he _ hexec =>
    exact ⟨_, _, hexec s1, hexec s2, rfl, rfl, fun hok => absurd hok he, fun _ => ⟨rfl, rfl⟩⟩
  | stores w hexec =>
    exact ⟨_, _, hexec s1, hexec s2, rfl, rfl, fun _ ht => by simp [ht], fun hne => absurd rfl hne⟩

/-- Settles O30: an `ENC` raises an error, with CW kept, or stores a codeword. -/
theorem encodeFrame : Obligations.EncodeFrame := by
  intro i s t hi ht
  have hframe : t = { s with cw := t.cw, encStat := t.encStat } ∧ (t.encStat.err ≠ .ok → t.cw = s.cw) := by
    cases encodeEnd hi with
    | raises e which val he _ hexec =>
      cases (hexec s).symm.trans ht
      exact ⟨rfl, fun _ => rfl⟩
    | stores w hexec =>
      cases (hexec s).symm.trans ht
      exact ⟨rfl, fun hne => absurd rfl hne⟩
  obtain ⟨heq, hkept⟩ := hframe
  refine ⟨heq, fun k hk => ?_, fun herr k hk => ?_⟩
  · have hne : ∀ j : BitVec 4, j = 1 ∨ j = 2 ∨ j = 3 ∨ j = 4 → k ≠ j := by
      rintro j hj rfl
      rcases hj with rfl | rfl | rfl | rfl <;> exact absurd hk (by decide)
    rw [heq]
    exact readReg_congr k (fun h => absurd h (hne 1 (by simp))) (fun h => absurd h (hne 2 (by simp)))
      (fun h => absurd h (hne 3 (by simp))) (fun h => absurd h (hne 4 (by simp))) (fun _ => rfl) (fun _ => rfl) (fun _ => rfl)
  · rw [heq, hkept herr]
    exact readReg_congr k (fun _ => rfl) (fun _ => rfl) (fun _ => rfl) (fun h => absurd h hk) (fun _ => rfl)
      (fun _ => rfl) (fun _ => rfl)

end Sys2Proof.Machine
end

section
/-! Steps by whose turn it is: HOST's accesses and commands, the host commands of the transmitter, the pin, the reset input
and the clock (R61, R62, R180 to R185, R270). -/

namespace Sys2Proof.Machine

/-! ## The beginning of a step -/

/-- While Idle the pin is sampled without effect (R33, R184). -/
theorem beginTurn_of_idle {s : State} (hs : s.seqState = .idle) : beginTurn s = { s with turns := s.turns.tail } := by
  simp [beginTurn, sampleCancel, requestCancel, hs]

theorem beginTurn_of_pin_high {s : State} (hpin : s.cancelI = true) (hs : s.seqState ≠ .idle) :
    beginTurn s = { s with turns := s.turns.tail, cancelPend := true } := by
  simp [beginTurn, sampleCancel, requestCancel, hpin, hs]

/-- Settles O2: the reset overrides the sampling, and the inputs are what they were. -/
theorem resetInputRestoresResetValues : Obligations.ResetInputRestoresResetValues := by
  intro s hturn
  rw [step_rst hturn]
  simp [resetHardware]

/-- Settles O54: the two branches of `clockTick`. -/
theorem clockCountsTheTimerDown : Obligations.ClockCountsTheTimerDown := by
  intro s hturn
  rw [step_clock hturn]
  refine ⟨fun hs hsub => ?_, fun hn => ?_⟩
  · simp [clockTick, hs, hsub]
  · rw [clockTick, if_neg (by simpa using hn)]

/-! ## HOST's accesses -/

section Host

variable {s : State} {rest : List HostOp}

theorem step_host_item {op : HostOp} (hturn : nextTurn s = .host) (hheld : s.held = none) (hprog : s.hostProg = op :: rest) :
    step s = hostOp exec op { beginTurn s with hostProg := rest } := by
  rw [step_host hturn]
  rcases hostTurn_cases exec (beginTurn s) with ⟨-, hn, -⟩ | ⟨_, hn, -⟩ | ⟨_, hn, -⟩ | ⟨op', rest', -, hp, he⟩
  · simp [hprog] at hn
  · simp [hheld] at hn
  · simp [hheld] at hn
  · obtain ⟨rfl, rfl⟩ : op = op' ∧ rest = rest' := by simpa [hprog] using hp
    exact he

theorem step_host_command {w : Word} (hturn : nextTurn s = .host) (hheld : s.held = none)
    (hprog : s.hostProg = .write 0 w :: rest) :
    step s = hostCommand exec w { beginTurn s with hostProg := rest } :=
  (step_host_item hturn hheld hprog).trans (hostOp_write_cmd exec w _)

theorem step_host_held {i : Instr} (hturn : nextTurn s = .host) (hheld : s.held = some i) :
    step s = if s.seqState = .idle then exec i { beginTurn s with held := none } else .next (beginTurn s) := by
  rw [step_host hturn]
  rcases hostTurn_cases exec (beginTurn s) with ⟨hn, -, -⟩ | ⟨_, -, hs, he⟩ | ⟨j, hj, hs, he⟩ | ⟨_, _, hn, -, -⟩
  · simp [hheld] at hn
  · rw [he, if_neg (by simpa using hs)]
  · obtain rfl : i = j := by simpa [hheld] using hj
    rw [he, if_pos (by simpa using hs)]
  · simp [hheld] at hn

theorem step_host_nothing (hturn : nextTurn s = .host) (hheld : s.held = none) (hprog : s.hostProg = []) :
    step s = .next (beginTurn s) := by
  rw [step_host hturn, hostTurn, beginTurn_held, hheld, beginTurn_hostProg, hprog]

end Host

/-- Settles O4: each of the three turns leaves the state in which it begins. -/
theorem idleMachineDoesNothing : Obligations.IdleMachineDoesNothing := by
  intro s hs hprog hheld hturn
  rw [← beginTurn_of_idle hs]
  rcases hturn with hturn | hturn | hturn
  · exact step_host_nothing hturn hheld hprog
  · exact (step_seq hturn).trans (seqTurn_of_idle (by simpa using hs))
  · rw [step_clock hturn, clockTick, if_neg (by simp [hs])]

/-- Settles O17: the decoder rejects the word, and HOST's write of it does nothing. -/
theorem reservedOpcodesAreIgnored : Obligations.ReservedOpcodesAreIgnored := by
  intro s w rest hturn hheld hprog hop
  rw [step_host_command hturn hheld hprog, hostCommand, decodeCommand_of_op_reserved hop]

/-- Settles O22: HOST's turn by what it finds. -/
theorem hostStepRunsTheDecodedCommand : Obligations.HostStepRunsTheDecodedCommand := by
  refine ⟨fun s w rest i hturn hheld hprog hdecode => ?command, fun s i hturn hheld hs => ?held⟩
  case command => rw [step_host_command hturn hheld hprog, hostCommand, hdecode]
  case held => rw [step_host_held hturn hheld, if_pos hs]

/-- Settles O32: a read is `hostRead`, which writes reg_rdata only. -/
theorem hostReadHasNoSideEffect : Obligations.HostReadHasNoSideEffect :=
  fun _ _ _ hturn hheld hprog => step_host_item hturn hheld hprog

/-- Settles O34: the write is `hostWrite`, and the slots after each write of CW have lemmas. -/
theorem hostWriteOfRegisterIsPerformed : Obligations.HostWriteOfRegisterIsPerformed := by
  intro s k v rest hturn hheld hprog hk
  refine ⟨?step, ?len, ?lo, ?hi⟩
  case step => rw [step_host_item hturn hheld hprog, hostOp_write_other exec hk]
  case len => rintro rfl; exact ⟨rfl, rfl⟩
  case lo => rintro rfl; exact ⟨writeLo_len s.cw v, fun _ => writeLo_slot s.cw v⟩
  case hi => rintro rfl; exact ⟨writeHi_len s.cw v, fun _ => writeHi_slot s.cw v⟩

theorem sendOps_eq_some_iff {f : Family} {p : Nat} {m sl : AddrOperand} {st : Status} {ops : List HostOp} :
    sendOps f p m sl st = some ops ↔
      ∃ e t, assemble (.enc f p m sl st) = some e ∧ assemble (.tx p) = some t ∧
        ops = [.write 0 e, .ifEncOk 2, .write 0 t, .waitTx] := by
  unfold sendOps
  cases assemble (.enc f p m sl st) <;> cases assemble (.tx p) <;> simp [eq_comm]

/-- Settles O38: the expansion, and the two items that test a value read. -/
theorem sendTransmitsOnlyAfterSuccess : Obligations.SendTransmitsOnlyAfterSuccess := by
  refine ⟨fun f p m sl st ops => sendOps_eq_some_iff, fun s n rest hturn hheld hprog => ?test,
    fun s rest hturn hheld hprog => ?wait⟩
  case test =>
    rw [step_host_item hturn hheld hprog, hostOp_ifEncOk]
    simp only [readReg_encStat, beginTurn_encStat]
  case wait =>
    have hlist : (if (beginTurn s).busy = true then .waitTx :: rest else rest) =
        if s.seqState = .idle then rest else .waitTx :: rest := by
      simp [State.busy]
    rw [step_host_item hturn hheld hprog, hostOp_waitTx, ← hlist]
    rfl

/-! ## TX and TXR -/

theorem exec_tx (p : BitVec 4) (s : State) : exec (.tx p) s = startTx (.tx p) p (fun row => row.defaultRepeat) s := rfl

theorem exec_txr (p : BitVec 4) (n : BitVec 16) (s : State) : exec (.txr p n) s = startTx (.txr p n) p (fun _ => n) s := rfl

theorem exec_cancel (s : State) : exec .cancel s = .next (requestCancel s) := rfl

theorem protocolRow_of_not_supported {p : BitVec 4} (hp : ¬Supported p) : protocolRow p = none :=
  (protocolRow_eq_none_iff p).mpr (protoSupported_eq_false hp)

/-- No slot below the length holds the code 3 (R26, R93). -/
theorem hasReserved_eq_false_iff_ne (c : Codeword) : c.hasReserved = false ↔ ∀ i, i < c.len.toNat → c.slot i ≠ 3 := by
  simp only [hasReserved_eq_false_iff, ← Option.ne_none_iff_exists', ne_eq, symbolOfCode_eq_none_iff]

section StartTx

variable {i : Instr} {p : BitVec 4} {count : ProtocolRow → BitVec 16} {s : State}

theorem startTx_of_busy (hs : s.seqState ≠ .idle) : startTx i p count s = .next (holdWrite i s) := if_pos hs

theorem startTx_of_not_supported (hs : s.seqState = .idle) (hp : ¬Supported p) : startTx i p count s = .next (rejectTx p s) := by
  rw [startTx, if_neg (by simp [hs]), protocolRow_of_not_supported hp]

theorem startTx_of_supported {row : ProtocolRow} (hs : s.seqState = .idle) (hp : protocolRow p = some row) :
    startTx i p count s = if s.cw.hasReserved then .refused .reservedSymbol else .next (acceptTx p (count row) s) := by
  rw [startTx, if_neg (by simp [hs]), hp]

end StartTx

/-- Settles O40: the default count is 10 in every row. -/
theorem transmitIsAcceptedOrRejected : Obligations.TransmitIsAcceptedOrRejected := by
  refine fun s p n hs => ⟨fun hp hcw => ?accepted, fun hp => ⟨startTx_of_not_supported hs hp, startTx_of_not_supported hs hp⟩⟩
  obtain ⟨row, hrow⟩ := protocolRow_of_supported ((protoSupported_iff p).mpr hp)
  have hcw := (hasReserved_eq_false_iff_ne s.cw).mpr hcw
  rw [exec_tx, exec_txr, startTx_of_supported hs hrow, startTx_of_supported hs hrow, hcw, protocolRow_defaultRepeat hrow]
  exact ⟨rfl, rfl⟩

/-- Settles O42: the protocol is supported, so the slot decides. -/
theorem transmitOfReservedCodeIsRefused : Obligations.TransmitOfReservedCodeIsRefused := by
  intro s p n i hs hp hi hslot
  obtain ⟨row, hrow⟩ := protocolRow_of_supported ((protoSupported_iff p).mpr hp)
  have hcw : s.cw.hasReserved = true := by
    by_contra h
    exact (hasReserved_eq_false_iff_ne s.cw).mp (Bool.eq_false_iff.mpr h) i hi hslot
  rw [exec_tx, exec_txr, startTx_of_supported hs hrow, startTx_of_supported hs hrow, hcw]
  exact ⟨rfl, rfl⟩

/-- Settles O41: the hold of `startTx`, and the turn of HOST that finds it. -/
theorem transmitIsHeldWhileBusy : Obligations.TransmitIsHeldWhileBusy := by
  refine ⟨fun s p n hs => ⟨startTx_of_busy hs, startTx_of_busy hs⟩, fun s i hturn hheld hs => ⟨?_, ?_⟩⟩
  · simp [State.regReady, hheld]
  · rw [step_host_held hturn hheld, if_neg hs]

/-- Settles O43: a request is latched exactly where the sequencer is not Idle, from the command and from the pin alike. -/
theorem cancelIsLatchedOnlyWhileBusy : Obligations.CancelIsLatchedOnlyWhileBusy := by
  intro s
  refine ⟨fun hs => ?_, fun hs => ?_, beginTurn_of_pin_high, fun _ hs => beginTurn_of_idle hs, fun hpin hs hturn => ?_⟩
  · rw [exec_cancel, requestCancel, if_pos hs]
  · rw [exec_cancel, requestCancel, if_neg (by simp [hs])]
  · have hbusy : s.seqState ≠ .idle := by simp [hs]
    rw [step_seq hturn, seqTurn_of_exporting (by simpa using hs), beginTurn_of_pin_high hpin hbusy]
    rfl

/-- The registers other than TXSTAT and WRCNT depend on CW, ENCSTAT and the position alone. -/
theorem readReg_of_transmitter_frame {s t : State} (hcw : t.cw = s.cw) (henc : t.encStat = s.encStat) (hpos : t.pos = s.pos)
    (k : BitVec 4) (h5 : k ≠ 5) (h6 : k ≠ 6) : readReg k t = readReg k s :=
  readReg_congr k (fun _ => congrArg cwLenWord hcw) (fun _ => congrArg cwLoWord hcw) (fun _ => congrArg cwHiWord hcw)
    (fun _ => henc) (fun h => absurd h h5) (fun h => absurd h h6) (fun _ => hpos)

/-- Only an acceptance writes the shadow or WRCNT (R182). -/
theorem TransmitterEffect.shadow_wrcnt {s t : State} (h : TransmitterEffect s t) :
    (t.shadow = s.shadow ∧ t.wrcnt = s.wrcnt) ∨ (s.seqState = .idle ∧ t.seqState = .exporting ∧ t.wrcnt = 0) := by
  cases h with
  | accept hidle => exact .inr ⟨hidle, rfl, rfl⟩
  | cancel => exact .inl ⟨requestCancel_shadow s, requestCancel_wrcnt s⟩
  | _ => exact .inl ⟨rfl, rfl⟩

/-- Settles O44: what a command of the transmitter can do, and which of it writes the shadow or WRCNT. -/
theorem transmitterCommandFrame : Obligations.TransmitterCommandFrame := by
  intro i s t hi hn h
  have heffect := transmitterEffect_of_exec hi hn h
  have hframe := heffect.frame
  refine ⟨?_, ?_, ?_, ?_, ?_, ?_, ?_, ?_, ?_, ?_,
    readReg_of_transmitter_frame (by rw [hframe]) (by rw [hframe]) (by rw [hframe]), fun hne => ?accepted⟩
  case accepted =>
    rcases heffect.shadow_wrcnt with ⟨hshadow, hwrcnt⟩ | ⟨hidle, hexporting, -⟩
    · exact hne.elim (absurd hshadow) (absurd hwrcnt)
    · exact ⟨hidle, hexporting⟩
  all_goals rw [hframe]

end Sys2Proof.Machine
end

section
/-! The sequencer's steps and LINE's answers (R186 to R198): one equation per branch of each operation, and the statements
that say a step is that operation. -/

namespace Sys2Proof.Machine

/-! ## The current primitive -/

theorem currentPrim_congr {s t : State} (hpos : t.pos.i = s.pos.i) (hshadow : t.shadow = s.shadow) :
    currentPrim t = currentPrim s := by
  rw [currentPrim, hpos, hshadow, currentPrim]

/-- A shadow that acceptance let in has a primitive at every position (R93, R188). -/
theorem exists_currentPrim {s : State} (h : s.shadow.cw.hasReserved = false) : ∃ prim, currentPrim s = some prim := by
  unfold currentPrim
  split_ifs with hi
  · obtain ⟨x, hx⟩ := (hasReserved_eq_false_iff s.shadow.cw).mp h s.pos.i.toNat hi
    exact ⟨.sym x, by rw [hx]; rfl⟩
  · exact ⟨.sync, rfl⟩

/-- In Framing the sequencer's step is the next event of the primitive at the position (R188). -/
theorem step_seq_framing {s : State} {prim : Prim} (hturn : nextTurn s = .seq) (hs : s.seqState = .framing)
    (hprim : currentPrim s = some prim) : step s = primStep prim (beginTurn s) :=
  (step_seq hturn).trans <| seqTurn_framing (by simpa using hs) <|
    (currentPrim_congr (by simp) (by simp)).trans hprim

/-- Settles O23: the fetch is part of the sequencer's turn. -/
theorem sequencerStepRunsTheFetchedPrimitive : Obligations.SequencerStepRunsTheFetchedPrimitive := by
  intro s i hturn hs hdecode
  have hselect : primSelect (beginTurn s) = primSelect s := by simp [primSelect]
  rw [step_seq hturn, seqTurn, beginTurn_seqState, hs]
  simp only [hselect, hdecode]

/-! ## The events of a primitive -/

section PrimStep

variable {prim : Prim} {s : State}

theorem primStep_request (hsub : s.pos.sub = .write) (hr : s.slReq = false) (hc : s.cancelPend = false)
    (hph : ¬lastPhase prim < s.pos.ph) : primStep prim s = .next (issueRequest s) := by
  simp [primStep, writeStep, hsub, hr, hc, hph]

theorem primStep_outstanding (hsub : s.pos.sub = .write) (hr : s.slReq = true) : primStep prim s = .next s := by
  simp [primStep, writeStep, hsub, hr]

theorem primStep_wait {k : Nat} (hsub : s.pos.sub = .wait) (hc : s.cancelPend = false)
    (hk : unitsOf prim s.shadow.proto s.pos.ph = .ok k) :
    primStep prim s = .next (advance prim (emit (.wait k s.shadow.proto) { s with tmr := 0 })) := by
  simp [primStep, waitStep, hsub, hc, hk]

/-- A pending cancel ends a wait, and a write step that has not issued its request (R198). -/
theorem primStep_cancel (h : s.pos.sub = .wait ∨ s.slReq = false) (hc : s.cancelPend = true) :
    primStep prim s = .next (complete .cancelled s) := by
  cases hsub : s.pos.sub with
  | wait => simp [primStep, waitStep, hsub, hc]
  | write =>
    have hr : s.slReq = false := h.resolve_left (by simp [hsub])
    simp [primStep, writeStep, hsub, hr, hc]

end PrimStep

theorem advance_of_phase_lt {prim : Prim} {s : State} (hph : s.pos.ph < lastPhase prim) :
    advance prim s = { s with pos := { s.pos with ph := s.pos.ph + 1, sub := .write } } := if_pos hph

theorem advance_of_lt {prim : Prim} {s : State} (hph : ¬s.pos.ph < lastPhase prim) (hi : s.pos.i < s.shadow.cw.len) :
    advance prim s = { s with pos := { s.pos with i := s.pos.i + 1, ph := 0, sub := .write } } :=
  (if_neg hph).trans (if_pos hi)

theorem advance_of_not_lt {prim : Prim} {s : State} (hph : ¬s.pos.ph < lastPhase prim) (hi : ¬s.pos.i < s.shadow.cw.len) :
    advance prim s = { s with seqState := .repeating } := (if_neg hph).trans (if_neg hi)

theorem advance_sym (x : Symbol) {s : State} (hi : s.pos.i < s.shadow.cw.len) :
    advance (.sym x) s = { s with
      pos := if s.pos.ph = 3 then { s.pos with i := s.pos.i + 1, ph := 0, sub := .write }
             else { s.pos with ph := s.pos.ph + 1, sub := .write } } := by
  have hlast : lastPhase (.sym x) = 3 := rfl
  by_cases hph : s.pos.ph = 3
  · rw [advance_of_lt (by simp [hlast, hph]) hi, if_pos hph]
  · rw [advance_of_phase_lt (by rw [hlast]; bv_omega), if_neg hph]

theorem advance_sync_zero {s : State} (hph : s.pos.ph = 0) :
    advance .sync s = { s with pos := { s.pos with ph := 1, sub := .write } } := by
  rw [advance_of_phase_lt (by simp [lastPhase, hph]), hph]
  rfl

theorem advance_sync_one {s : State} (hph : s.pos.ph = 1) (hi : s.pos.i = s.shadow.cw.len) :
    advance .sync s = { s with seqState := .repeating } :=
  advance_of_not_lt (by simp [lastPhase, hph]) (by simp [hi])

/-- Settles O47: the phase is inside the table's row. -/
theorem primitiveIssuesItsRequest : Obligations.PrimitiveIssuesItsRequest := by
  intro s hsub hr hc
  rw [← levelOf_eq]
  have hsym : ∀ x, ¬lastPhase (.sym x) < s.pos.ph := fun x => by
    change ¬3 < s.pos.ph
    bv_omega
  refine ⟨primStep_request hsub hr hc (hsym _), primStep_request hsub hr hc (hsym _), primStep_request hsub hr hc (hsym _),
    fun hph => primStep_request hsub hr hc ?_⟩
  change ¬1 < s.pos.ph
  bv_omega

theorem primStep_sym_wait {s : State} {x : Symbol} {k : Nat} (hsub : s.pos.sub = .wait) (hc : s.cancelPend = false)
    (hi : s.pos.i < s.shadow.cw.len) (hk : unitsOf (.sym x) s.shadow.proto s.pos.ph = .ok k) :
    primStep (.sym x) s = .next { s with
      tmr := 0, trace := s.trace ++ [.wait k s.shadow.proto]
      pos := if s.pos.ph = 3 then { s.pos with i := s.pos.i + 1, ph := 0, sub := .write }
             else { s.pos with ph := s.pos.ph + 1, sub := .write } } := by
  rw [primStep_wait hsub hc hk, advance_sym x (by exact hi)]
  rfl

/-- Settles O48: the rows of R188's table, and the advance of a symbol. -/
theorem symbolWaitEndsAndAdvances : Obligations.SymbolWaitEndsAndAdvances := by
  intro s hsub hc t hi
  exact ⟨primStep_sym_wait hsub hc hi (unitsOf_zero _ _), primStep_sym_wait hsub hc hi (unitsOf_one _ _),
    primStep_sym_wait hsub hc hi (unitsOf_float _ _)⟩

/-- Settles O49: the two phases of Sync. -/
theorem syncWaitEndsAndAdvances : Obligations.SyncWaitEndsAndAdvances := by
  intro s hsub hc hp
  obtain ⟨row, hrow⟩ := protocolRow_of_supported ((protoSupported_iff _).mpr hp)
  have hunits := unitsOf_sync hrow s.pos.ph
  refine ⟨fun hph => ?mark, fun hph hi => ?space⟩
  case mark =>
    rw [if_pos hph] at hunits
    exact (primStep_wait hsub hc hunits).trans (congrArg _ (advance_sync_zero hph))
  case space =>
    rw [hph, if_neg (by decide), if_pos rfl, ← hph, protocolRow_syncRatio hrow] at hunits
    exact (primStep_wait hsub hc hunits).trans (congrArg _ (advance_sync_one hph hi))

/-- The fields that the advance of the position can write (R192). -/
theorem advance_frame (prim : Prim) (s : State) :
    advance prim s = { s with
      seqState := (advance prim s).seqState
      pos := { (advance prim s).pos with r := s.pos.r } } := by
  rcases advance_cases prim s with ⟨-, he⟩ | ⟨-, -, he⟩ | ⟨-, -, he⟩ <;> rw [he]

/-- The fields that the next event of a primitive can write (R189 to R192, R198). -/
theorem primStep_frame {prim : Prim} {s t : State} (h : primStep prim s = .next t) :
    t = { s with
      seqState := t.seqState, cancelPend := t.cancelPend, txStat := t.txStat, pos := { t.pos with r := s.pos.r }
      wrcnt := t.wrcnt, tmr := t.tmr, slReq := t.slReq, slVal := t.slVal, trace := t.trace } := by
  rcases primStep_next h with ⟨-, -, rfl⟩ | ⟨-, -, -, rfl⟩ | ⟨-, -, -, -, rfl⟩ | ⟨-, -, rfl⟩ | ⟨k, -, -, -, rfl⟩
  · rfl
  · rfl
  · rfl
  · rfl
  · rw [advance_frame]
    rfl

/-- Settles O55: the fields that the event can write, and the write step of an outstanding request. -/
theorem primitiveFrame : Obligations.PrimitiveFrame := by
  intro i prim s t hi h
  rw [exec_of_primOf hi] at h
  have hframe := primStep_frame h
  refine ⟨?_, ?_, ?_, ?_, ?_, ?_, ?_, ?_, ?_, fun k hk => ?registers, fun hr hsub => ?outstanding⟩
  case registers =>
    have hne : ∀ j : BitVec 4, j = 5 ∨ j = 6 ∨ j = 7 → k ≠ j := by
      rintro j hj rfl
      rcases hj with rfl | rfl | rfl <;> exact absurd hk (by decide)
    rw [hframe]
    exact readReg_congr k (fun _ => rfl) (fun _ => rfl) (fun _ => rfl) (fun _ => rfl) (fun h => absurd h (hne 5 (by simp)))
      (fun h => absurd h (hne 6 (by simp))) (fun h => absurd h (hne 7 (by simp)))
  case outstanding => exact (Host.Outcome.next.inj ((primStep_outstanding hsub hr).symm.trans h)).symm
  all_goals rw [hframe]

/-! ## The steps outside a primitive -/

theorem step_seq_exporting {s : State} (hturn : nextTurn s = .seq) (hs : s.seqState = .exporting) :
    step s = .next (exportStep (beginTurn s)) :=
  (step_seq hturn).trans (seqTurn_of_exporting (by simpa using hs))

theorem step_seq_repeating {s : State} (hturn : nextTurn s = .seq) (hs : s.seqState = .repeating) :
    step s = .next (repeatStep (beginTurn s)) :=
  (step_seq hturn).trans (seqTurn_of_repeating (by simpa using hs))

theorem exportStep_of_cancel {s : State} (hc : s.cancelPend = true) : exportStep s = complete .cancelled s := if_pos hc

theorem exportStep_of_rep_eq_zero {s : State} (hc : s.cancelPend = false) (hrep : s.shadow.rep = 0) :
    exportStep s = complete .ok (emit .exported (activateLine s)) := by
  unfold exportStep
  rw [if_neg (by simp [hc])]
  exact if_pos hrep

theorem exportStep_of_rep_ne_zero {s : State} (hc : s.cancelPend = false) (hrep : s.shadow.rep ≠ 0) :
    exportStep s = { emit .exported (activateLine s) with
      pos := { r := 0, i := 0, ph := 0, sub := .write }, seqState := .framing } := by
  unfold exportStep
  rw [if_neg (by simp [hc])]
  exact if_neg hrep

theorem repeatStep_of_cancel {s : State} (hc : s.cancelPend = true) : repeatStep s = complete .cancelled s := if_pos hc

theorem repeatStep_of_lt {s : State} (hc : s.cancelPend = false) (hrep : s.pos.r + 1 < s.shadow.rep) :
    repeatStep s = { s with pos := { r := s.pos.r + 1, i := 0, ph := 0, sub := .write }, seqState := .framing } := by
  unfold repeatStep
  rw [if_neg (by simp [hc])]
  exact if_pos hrep

theorem repeatStep_of_not_lt {s : State} (hc : s.cancelPend = false) (hrep : ¬s.pos.r + 1 < s.shadow.rep) :
    repeatStep s = complete .ok { s with pos := { s.pos with r := s.pos.r + 1 } } := by
  unfold repeatStep
  rw [if_neg (by simp [hc])]
  exact if_neg hrep

/-- Settles O45: the branches of `exportStep`. -/
theorem exportingStep : Obligations.ExportingStep := by
  intro s hturn hs
  rw [step_seq_exporting hturn hs]
  refine ⟨fun hc => congrArg _ (exportStep_of_cancel hc), fun hc hrep => ?none, fun hc hrep => ?frames⟩
  case none =>
    rw [exportStep_of_rep_eq_zero hc (by rwa [beginTurn_shadow])]
    simp [complete, emit, activateLine]
  case frames =>
    rw [exportStep_of_rep_ne_zero hc (by rwa [beginTurn_shadow])]
    simp [emit, activateLine]

/-- Settles O46: the branches of `repeatStep`. -/
theorem repeatingStep : Obligations.RepeatingStep := by
  intro s hturn hs
  rw [step_seq_repeating hturn hs]
  refine ⟨fun hc => congrArg _ (repeatStep_of_cancel hc), fun hc hrep => ?next, fun hc hrep => ?last⟩
  case next => rw [repeatStep_of_lt hc (by rwa [beginTurn_pos, beginTurn_shadow]), beginTurn_pos]
  case last =>
    rw [repeatStep_of_not_lt hc (by rwa [beginTurn_pos, beginTurn_shadow]), beginTurn_pos]
    rfl

/-- Settles O53: in each busy STATE the cancel is tested before the step's own work. -/
theorem pendingCancelEndsTheTransmission : Obligations.PendingCancelEndsTheTransmission := by
  intro s hturn hs hr ⟨_, hcw⟩ _ hc
  cases hstate : s.seqState with
  | idle => exact absurd hstate hs
  | exporting => exact (exportingStep s hturn hstate).1 hc
  | framing =>
    obtain ⟨prim, hprim⟩ := exists_currentPrim hcw
    exact (step_seq_framing hturn hstate hprim).trans (primStep_cancel (.inr (by simpa using hr)) hc)
  | repeating => exact (repeatingStep s hturn hstate).1 hc

/-! ## LINE's answer -/

theorem step_line_answer {s : State} {a : Answer} {rest : List Answer} (hturn : nextTurn s = .line) (ha : s.answers = a :: rest) :
    step s = lineAnswer a { beginTurn s with answers := rest } :=
  (step_line hturn).trans (lineTurn_of_cons (by simpa using ha))

theorem step_line_silent {s : State} (hturn : nextTurn s = .line) (ha : s.answers = []) : step s = .next (beginTurn s) :=
  (step_line hturn).trans (lineTurn_of_nil (by simpa using ha))

theorem lineAnswer_ignored {s : State} (a : Answer) (hr : s.slReq = false) : lineAnswer a s = .next s := by
  unfold lineAnswer
  exact if_pos hr

theorem lineAnswer_error {s : State} (hr : s.slReq = true) : lineAnswer .error s = .next (answerError s) := by
  unfold lineAnswer
  exact if_neg (by simp [hr])

theorem lineAnswer_ok {s : State} {prim : Prim} {row : ProtocolRow} {k : Nat} (hr : s.slReq = true)
    (hprim : currentPrim s = some prim) (hrow : protocolRow s.shadow.proto = some row)
    (hk : unitsOf prim s.shadow.proto s.pos.ph = .ok k) : lineAnswer .ok s = .next (answerOk (waitCycles k row) s) := by
  unfold lineAnswer
  rw [if_neg (by simp [hr])]
  simp only [hprim, hrow, hk]

theorem step_line_ok {s : State} {rest : List Answer} {prim : Prim} {row : ProtocolRow} {k : Nat}
    (hturn : nextTurn s = .line) (hr : s.slReq = true) (ha : s.answers = .ok :: rest) (hprim : currentPrim s = some prim)
    (hrow : protocolRow s.shadow.proto = some row) (hk : unitsOf prim s.shadow.proto s.pos.ph = .ok k) :
    step s = .next (answerOk (waitCycles k row) { beginTurn s with answers := rest }) := by
  rw [step_line_answer hturn ha]
  refine lineAnswer_ok (by simpa using hr) ((currentPrim_congr ?_ ?_).trans hprim) (by simpa using hrow) (by simpa using hk) <;>
    simp

/-- F_CLK_HZ is a multiple of 10^6 (R8). -/
theorem dvd_clkHz : 1000000 ∣ clkHz := by
  unfold clkHz
  exact Nat.dvd_mul_left ..

/-- Settles O50: the answer Ok, and the tables it reads. -/
theorem answerOkBeginsTheWait : Obligations.AnswerOkBeginsTheWait := by
  refine ⟨fun s rest prim row k hturn hr ha hprim hrow hk => ?answer,
    fun p ph => ⟨unitsOf_zero p ph, unitsOf_one p ph, unitsOf_float p ph⟩,
    fun p row hrow => ⟨unitsOf_sync hrow 0, unitsOf_sync hrow 1⟩,
    ⟨_, _, _, rfl, rfl, rfl, rfl, Nat.le_add_left .., Nat.le_add_left .., rfl, rfl, rfl⟩,
    fun p => protocolRow_of_not_supported, Nat.mod_eq_zero_of_dvd dvd_clkHz⟩
  rw [step_line_ok hturn hr ha hprim hrow hk]
  simp [answerOk, waitCycles]

/-- Settles O51: the answer Error is the completion with LineWriteFailed. -/
theorem answerErrorEndsTheTransmission : Obligations.AnswerErrorEndsTheTransmission := by
  intro s rest hturn hr ha
  rw [step_line_answer hturn ha, lineAnswer_error (by simpa using hr)]
  simp [answerError, complete]

/-- Settles O52: an answer without its request, a request without its answer, and LINE's turn with none. -/
theorem requestAndAnswerGoTogether : Obligations.RequestAndAnswerGoTogether := by
  refine ⟨fun s a rest hturn hr ha => ?ignored, fun s hturn hs hsub hr hvalid hi => ?outstanding,
    fun s hturn ha => step_line_silent hturn ha⟩
  case ignored => rw [step_line_answer hturn ha, lineAnswer_ignored a (by simpa using hr)]
  case outstanding =>
    obtain ⟨-, hcw⟩ := hvalid
    obtain ⟨prim, hprim⟩ := exists_currentPrim hcw
    rw [step_seq_framing hturn hs hprim, primStep_outstanding (by simpa using hsub) (by simpa using hr)]

end Sys2Proof.Machine
end

section
/-! What every step keeps: EXPORTED, LINE, the shadow, CW, ENCSTAT, WRCNT and the encoder tables, by the effect of each turn. -/

namespace Sys2Proof.Machine

/-! ## Frames -/

/-- The fields that no instruction writes. -/
theorem exec_frame {i : Instr} {s t : State} (h : exec i s = .next t) :
    t = { t with
      exported := s.exported, line := s.line, regRdata := s.regRdata, cancelI := s.cancelI, tables := s.tables
      turns := s.turns, hostProg := s.hostProg, answers := s.answers, pin := s.pin } := by
  rcases exec_effect h with hcommand | ⟨prim, -, hstep⟩
  · cases hcommand with
    | encode => rfl
    | transmitter ht => rw [ht.frame]
  · rw [primStep_frame hstep]

theorem exportStep_frame (s : State) :
    exportStep s = { s with
      seqState := (exportStep s).seqState, exported := (exportStep s).exported, cancelPend := (exportStep s).cancelPend
      txStat := (exportStep s).txStat, pos := (exportStep s).pos, slReq := (exportStep s).slReq
      trace := (exportStep s).trace, pin := (exportStep s).pin } := by
  rcases exportStep_cases s with ⟨-, he⟩ | ⟨-, -, he⟩ | ⟨-, -, he⟩ <;> rw [he] <;> rfl

theorem exportStep_exported (s : State) (h : s.exported = true) : (exportStep s).exported = true := by
  rcases exportStep_cases s with ⟨-, he⟩ | ⟨-, -, he⟩ | ⟨-, -, he⟩ <;> rw [he]
  · exact h
  · rfl
  · rfl

theorem repeatStep_frame (s : State) :
    repeatStep s = { s with
      seqState := (repeatStep s).seqState, cancelPend := (repeatStep s).cancelPend, txStat := (repeatStep s).txStat
      pos := (repeatStep s).pos, slReq := (repeatStep s).slReq } := by
  rcases repeatStep_cases s with ⟨-, he⟩ | ⟨-, -, he⟩ | ⟨-, -, he⟩ <;> rw [he] <;> rfl

theorem lineAnswer_frame {a : Answer} {s t : State} (h : lineAnswer a s = .next t) :
    t = { s with
      seqState := t.seqState, line := t.line, cancelPend := t.cancelPend, txStat := t.txStat, pos := t.pos
      tmr := t.tmr, slReq := t.slReq, trace := t.trace, pin := t.pin } := by
  rcases lineAnswer_next h with ⟨-, rfl⟩ | ⟨-, -, rfl⟩ | ⟨_, _, _, -, -, -, -, -, rfl⟩ <;> rfl

theorem clockTick_frame (s : State) : clockTick s = { s with tmr := (clockTick s).tmr } := by
  unfold clockTick
  split_ifs <;> rfl

/-- The fields that a turn of neither HOST nor reset leaves: CW, ENCSTAT and the shadow among them (R25, R28, R38). -/
theorem TurnEffect.frame {turn : Turn} {u t : State} (h : TurnEffect u turn t) (hhost : turn ≠ .host) (hrst : turn ≠ .rst) :
    t = { t with
      cw := u.cw, encStat := u.encStat, shadow := u.shadow, held := u.held, regRdata := u.regRdata, tables := u.tables
      turns := u.turns, hostProg := u.hostProg } := by
  cases h with
  | access | run => exact absurd rfl hhost
  | reset => exact absurd rfl hrst
  | idle | unanswered | pin => rfl
  | exporting => rw [exportStep_frame]
  | framing _ _ hstep => rw [primStep_frame hstep]
  | repeating => rw [repeatStep_frame]
  | answered _ hanswer => rw [lineAnswer_frame hanswer]
  | clock => rw [clockTick_frame]

/-- While BUSY a turn of HOST writes its own registers, CANCEL_PEND and the held write only (R183, R184). -/
theorem TurnEffect.host_frame {u t : State} (h : TurnEffect u .host t) (hbusy : u.seqState ≠ .idle) :
    t = { u with
      cw := t.cw, encStat := t.encStat, cancelPend := t.cancelPend, held := t.held, regRdata := t.regRdata
      hostProg := t.hostProg } := by
  cases h with
  | access => rfl
  | run prog hi hexec =>
    rcases hi with ⟨-, hi⟩ | ⟨-, hidle⟩
    · cases commandEffect_of_exec hi hexec with
      | encode => rfl
      | transmitter ht =>
        cases ht with
        | nothing | hold => rfl
        | reject hidle | accept hidle => exact absurd hidle hbusy
        | cancel =>
          unfold requestCancel
          split_ifs <;> rfl
    · exact absurd hidle hbusy

/-! ## Registers that few turns write -/

/-- Settles O3: only reset lowers EXPORTED. -/
theorem exportedFallsOnlyByReset : Obligations.ExportedFallsOnlyByReset := by
  intro s t hstep hs ht
  by_contra hrst
  refine Bool.false_ne_true (ht.symm.trans ?_)
  have heffect := turnEffect_of_step hstep
  rw [← beginTurn_exported] at hs
  generalize nextTurn s = turn at heffect hrst
  cases heffect with
  | access | idle | unanswered | pin => exact hs
  | run _ _ hexec => rw [exec_frame hexec]; exact hs
  | exporting => exact exportStep_exported _ hs
  | framing _ _ hstep => rw [primStep_frame hstep]; exact hs
  | repeating => rw [repeatStep_frame]; exact hs
  | answered _ hanswer => rw [lineAnswer_frame hanswer]; exact hs
  | reset => exact absurd rfl hrst
  | clock => rw [clockTick_frame]; exact hs

/-- Settles O8: while BUSY no turn but reset writes the shadow. -/
theorem shadowFixedWhileBusy : Obligations.ShadowFixedWhileBusy := by
  intro s t hbusy hrst hstep
  have heffect := turnEffect_of_step hstep
  rw [← beginTurn_shadow s]
  by_cases hhost : nextTurn s = .host
  · rw [hhost] at heffect
    rw [heffect.host_frame (by simpa using hbusy)]
  · rw [heffect.frame hhost hrst]

/-- Settles O9: the frame of the other agents' turns. -/
theorem codewordAndEncoderStatusAreTheHosts : Obligations.CodewordAndEncoderStatusAreTheHosts := by
  intro s t hhost hrst hstep
  have hframe := (turnEffect_of_step hstep).frame hhost hrst
  rw [← beginTurn_cw s, ← beginTurn_encStat s, hframe]
  exact ⟨rfl, rfl⟩

/-- The next event of a primitive leaves WRCNT, or counts the request it raises (R40). -/
theorem primStep_wrcnt {prim : Prim} {s t : State} (h : primStep prim s = .next t) :
    t.wrcnt = s.wrcnt ∨ (t.wrcnt = s.wrcnt + 1 ∧ s.slReq = false ∧ t.slReq = true) := by
  rcases primStep_next h with ⟨-, -, rfl⟩ | ⟨-, -, -, rfl⟩ | ⟨-, hr, -, -, rfl⟩ | ⟨-, -, rfl⟩ | ⟨k, -, -, -, rfl⟩
  · exact .inl rfl
  · exact .inl rfl
  · exact .inr ⟨rfl, hr, rfl⟩
  · exact .inl rfl
  · exact .inl (advance_wrcnt _ _)

/-- Settles O10: requests are counted by the event that raises them; acceptance and reset clear WRCNT. -/
theorem writeCountCountsRequests : Obligations.WriteCountCountsRequests := by
  intro s t hstep
  have heffect := turnEffect_of_step hstep
  rw [← beginTurn_wrcnt s, ← beginTurn_slReq s, ← beginTurn_seqState s]
  generalize nextTurn s = turn at heffect ⊢
  cases heffect with
  | access | idle | unanswered | pin => exact .inl rfl
  | run _ _ hexec =>
    rcases exec_effect hexec with hcommand | ⟨prim, -, hprim⟩
    · cases hcommand with
      | encode => exact .inl rfl
      | transmitter ht =>
        rcases ht.shadow_wrcnt with ⟨-, hkept⟩ | ⟨hidle, hexporting, hzero⟩
        · exact .inl hkept
        · exact .inr (.inr ⟨hzero, .inl ⟨hidle, hexporting⟩⟩)
    · rcases primStep_wrcnt hprim with hkept | hcount
      · exact .inl hkept
      · exact .inr (.inl hcount)
  | exporting => exact .inl (by rw [exportStep_frame])
  | framing _ _ hprim =>
    rcases primStep_wrcnt hprim with hkept | hcount
    · exact .inl hkept
    · exact .inr (.inl hcount)
  | repeating => exact .inl (by rw [repeatStep_frame])
  | answered _ hanswer => exact .inl (by rw [lineAnswer_frame hanswer])
  | reset => exact .inr (.inr ⟨rfl, .inr rfl⟩)
  | clock => exact .inl (by rw [clockTick_frame])

/-- Settles O11: of LINE's answers, only an Ok to an outstanding request writes LINE. -/
theorem lineRegisterFollowsOkAnswers : Obligations.LineRegisterFollowsOkAnswers := by
  intro s t hstep hne
  have heffect := turnEffect_of_step hstep
  rw [← beginTurn_line s] at hne
  rw [← beginTurn_slReq s, ← beginTurn_answers s, ← beginTurn_slVal s]
  generalize nextTurn s = turn at heffect ⊢
  cases heffect with
  | access | idle | unanswered | pin => exact absurd rfl hne
  | run _ _ hexec => exact absurd (by rw [exec_frame hexec]) hne
  | exporting => exact absurd (by rw [exportStep_frame]) hne
  | framing _ _ hprim => exact absurd (by rw [primStep_frame hprim]) hne
  | repeating => exact absurd (by rw [repeatStep_frame]) hne
  | answered ha hanswer =>
    rcases lineAnswer_next hanswer with ⟨-, rfl⟩ | ⟨-, -, rfl⟩ | ⟨_, _, _, hr, rfl, -, -, -, rfl⟩
    · exact absurd rfl hne
    · exact absurd rfl hne
    · exact .inr ⟨rfl, hr, ⟨_, ha⟩, rfl⟩
  | reset => exact .inl rfl
  | clock => exact absurd (by rw [clockTick_frame]) hne

theorem step_tables {s t : State} (hstep : step s = .next t) : t.tables = s.tables := by
  have heffect := turnEffect_of_step hstep
  rw [← beginTurn_tables s]
  generalize nextTurn s = turn at heffect
  cases heffect with
  | access | idle | unanswered | pin | reset => rfl
  | run _ _ hexec => rw [exec_frame hexec]
  | exporting => rw [exportStep_frame]
  | framing _ _ hprim => rw [primStep_frame hprim]
  | repeating => rw [repeatStep_frame]
  | answered _ hanswer => rw [lineAnswer_frame hanswer]
  | clock => rw [clockTick_frame]

/-- Settles O29: no step writes the tables, and an `ENC` has one end for one configuration. -/
theorem encodingDependsOnTheCommandAlone : Obligations.EncodingDependsOnTheCommandAlone :=
  ⟨fun _ _ => step_tables, fun _ s1 s2 hi => (encodeEnd hi).independent s1 s2⟩

end Sys2Proof.Machine
end

section
/-! Steps of a coherent machine: they never fault (R106), an outstanding request waits for LINE (R200), and a transmission
ends in one of four ways, at the count of its position (R203, R239). -/

namespace Sys2Proof.Machine

/-! ## No fault -/

/-- A host command never faults, and is refused only with the reserved code in CW (R93). -/
theorem exec_command_stops {i : Instr} (hi : isCommand i = true) (s : State) :
    (∀ r, exec i s ≠ .fault r) ∧
    (∀ r, exec i s = .refused r → r = .reservedSymbol ∧ s.seqState = .idle ∧ s.cw.hasReserved = true) := by
  have hstart : ∀ (p : BitVec 4) (count : ProtocolRow → BitVec 16), (∀ r, startTx i p count s ≠ .fault r) ∧
      (∀ r, startTx i p count s = .refused r → r = .reservedSymbol ∧ s.seqState = .idle ∧ s.cw.hasReserved = true) := by
    intro p count
    obtain ⟨hfault, hrefused⟩ := startTx_stops i p count s
    refine ⟨hfault, fun r hr => ?_⟩
    obtain ⟨hreason, hidle, -, hcw⟩ := hrefused r hr
    exact ⟨hreason, hidle, hcw⟩
  cases i with
  | tx | txr => exact hstart _ _
  | zero | one | float | sync => cases hi
  | _ => exact ⟨nofun, nofun⟩

/-- The row of R188's table has a cell for every phase up to the primitive's last. -/
theorem exists_unitsOf {prim : Prim} {p : BitVec 4} {row : ProtocolRow} (hrow : protocolRow p = some row) {ph : BitVec 2}
    (hph : ¬lastPhase prim < ph) : ∃ k, unitsOf prim p ph = .ok k := by
  cases prim with
  | sym x => exact unitsOf_sym x p ph
  | sync =>
    rw [unitsOf_sync hrow]
    change ¬1 < ph at hph
    by_cases h0 : ph = 0
    · exact ⟨1, if_pos h0⟩
    · have h1 : ph = 1 := by bv_omega
      exact ⟨row.syncRatio, by rw [if_neg h0, if_pos h1]⟩

/-- The phase of a position in the frame is one that its primitive has (R36, R188). -/
theorem Coherent.phase_le_last {s : State} {prim : Prim} (h : Coherent s) (hs : s.seqState = .framing)
    (hprim : currentPrim s = some prim) : ¬lastPhase prim < s.pos.ph := by
  obtain ⟨⟨-, hi, hph⟩, -, -, -⟩ := h.framing hs
  rw [lastPhase_of_currentPrim hprim]
  split_ifs with hlt
  · bv_omega
  · have hend : s.pos.i = s.shadow.cw.len := by bv_omega
    have := hph hend
    bv_omega

theorem Coherent.exists_protocolRow {s : State} (h : Coherent s) (hs : s.seqState ≠ .idle) :
    ∃ row, protocolRow s.shadow.proto = some row := by
  obtain ⟨⟨hp, -⟩, -⟩ := h.busy hs
  exact protocolRow_of_supported hp

theorem Coherent.exists_currentPrim {s : State} (h : Coherent s) (hs : s.seqState ≠ .idle) :
    ∃ prim, currentPrim s = some prim := by
  obtain ⟨⟨-, hcw⟩, -⟩ := h.busy hs
  exact Machine.exists_currentPrim hcw

theorem exists_primStep {s : State} {prim : Prim} (h : Coherent s) (hs : s.seqState = .framing)
    (hprim : currentPrim s = some prim) : ∃ t, primStep prim s = .next t := by
  have hlast := h.phase_le_last hs hprim
  cases hc : s.cancelPend with
  | true =>
    cases hr : s.slReq with
    | true =>
      obtain ⟨-, hsub, -⟩ := h.request hr
      exact ⟨_, primStep_outstanding hsub hr⟩
    | false => exact ⟨_, primStep_cancel (.inr hr) hc⟩
  | false =>
    cases hsub : s.pos.sub with
    | write =>
      cases hr : s.slReq with
      | true => exact ⟨_, primStep_outstanding hsub hr⟩
      | false => exact ⟨_, primStep_request hsub hr hc hlast⟩
    | wait =>
      obtain ⟨row, hrow⟩ := h.exists_protocolRow (by simp [hs])
      obtain ⟨k, hk⟩ := exists_unitsOf hrow hlast
      exact ⟨_, primStep_wait hsub hc hk⟩

theorem Coherent.exists_seqTurn {s : State} (h : Coherent s) : ∃ t, seqTurn exec s = .next t := by
  cases hs : s.seqState with
  | idle | exporting | repeating => simp [seqTurn, hs]
  | framing =>
    obtain ⟨prim, hprim⟩ := h.exists_currentPrim (by simp [hs])
    rw [seqTurn_framing hs hprim]
    exact exists_primStep h hs hprim

theorem exists_lineAnswer {s : State} (h : Coherent s) (a : Answer) : ∃ t, lineAnswer a s = .next t := by
  cases hr : s.slReq with
  | false => exact ⟨_, lineAnswer_ignored a hr⟩
  | true =>
    cases a with
    | error => exact ⟨_, lineAnswer_error hr⟩
    | ok =>
      obtain ⟨hs, -, -⟩ := h.request hr
      have hbusy : s.seqState ≠ .idle := by simp [hs]
      obtain ⟨prim, hprim⟩ := h.exists_currentPrim hbusy
      obtain ⟨row, hrow⟩ := h.exists_protocolRow hbusy
      obtain ⟨k, hk⟩ := exists_unitsOf hrow (h.phase_le_last hs hprim)
      exact ⟨_, lineAnswer_ok hr hprim hrow hk⟩

theorem Coherent.exists_lineTurn {s : State} (h : Coherent s) : ∃ t, lineTurn s = .next t := by
  rcases lineTurn_cases s with ⟨-, he⟩ | ⟨a, rest, -, he⟩
  · exact ⟨_, he⟩
  · rw [he]
    exact exists_lineAnswer (h.frame ..) a

/-- HOST's turn runs commands only, so it stops as they do. -/
theorem Coherent.hostTurn_stops {s : State} (h : Coherent s) :
    (∀ r, hostTurn exec s ≠ .fault r) ∧
    (∀ r, hostTurn exec s = .refused r → r = .reservedSymbol ∧ s.seqState = .idle ∧ s.cw.hasReserved = true) := by
  rcases hostTurn_cases exec s with ⟨-, -, he⟩ | ⟨i, -, -, he⟩ | ⟨i, hheld, -, he⟩ | ⟨op, rest, -, -, he⟩ <;> rw [he]
  · exact ⟨nofun, nofun⟩
  · exact ⟨nofun, nofun⟩
  · exact exec_command_stops (isCommand_of_heldLegal (hheld ▸ h.held)) _
  · cases op with
    | read | waitTx | ifEncOk => exact ⟨nofun, nofun⟩
    | write k v =>
      by_cases hk : k = 0
      · subst hk
        rw [hostOp_write_cmd]
        rcases hostCommand_cases exec v { s with hostProg := rest } with ⟨i, hi, he⟩ | ⟨e, -, he⟩ <;> rw [he]
        · exact exec_command_stops (isCommand_of_decodeCommand hi) _
        · exact ⟨nofun, nofun⟩
      · rw [hostOp_write_other exec hk]
        exact ⟨nofun, nofun⟩

/-- Settles O7: in a coherent state only HOST's turn can stop. -/
theorem coherentStepNeverFaults : Obligations.CoherentStepNeverFaults := by
  intro s h
  have hbegin := h.beginTurn
  have hnext : (∃ t, step s = .next t) → (∀ r, step s ≠ .fault r) ∧ (∀ r, step s ≠ .refused r) := by
    rintro ⟨t, ht⟩
    rw [ht]
    exact ⟨nofun, nofun⟩
  have hothers : nextTurn s ≠ .host → ∃ t, step s = .next t := by
    intro hhost
    cases hturn : nextTurn s with
    | host => exact absurd hturn hhost
    | seq => rw [step_seq hturn]; exact hbegin.exists_seqTurn
    | line => rw [step_line hturn]; exact hbegin.exists_lineTurn
    | cancelPin b => exact ⟨_, step_cancelPin hturn⟩
    | rst => exact ⟨_, step_rst hturn⟩
    | clock => exact ⟨_, step_clock hturn⟩
  by_cases hturn : nextTurn s = .host
  · obtain ⟨hfault, hrefused⟩ := hbegin.hostTurn_stops
    rw [step_host hturn]
    refine ⟨hfault, fun r hr => ?_⟩
    obtain ⟨hreason, hidle, hcw⟩ := hrefused r hr
    exact ⟨hreason, hturn, by simpa using hidle, by simpa using hcw⟩
  · obtain ⟨hfault, hrefused⟩ := hnext (hothers hturn)
    exact ⟨hfault, fun r hr => absurd hr (hrefused r)⟩

/-! ## An outstanding request -/

/-- Settles O13: every turn but LINE's answer and reset leaves the write step. -/
theorem requestStaysUntilAnswered : Obligations.RequestStaysUntilAnswered := by
  intro s t h hr hrst hsilent hstep
  have heffect := turnEffect_of_step hstep
  have hbegin := h.beginTurn
  rw [← beginTurn_slReq] at hr
  rw [← beginTurn_answers] at hsilent
  rw [← beginTurn_slVal s, ← beginTurn_seqState s, ← beginTurn_pos s, ← beginTurn_wrcnt s]
  generalize nextTurn s = turn at heffect hrst hsilent
  generalize beginTurn s = u at *
  obtain ⟨hs, hsub, -⟩ := hbegin.request hr
  have hkept : u.slReq = true ∧ u.slVal = u.slVal ∧ u.seqState = u.seqState ∧ u.pos = u.pos ∧ u.wrcnt = u.wrcnt :=
    ⟨hr, rfl, rfl, rfl, rfl⟩
  by_cases hhost : turn = .host
  · subst hhost
    rw [heffect.host_frame (by simp [hs])]
    exact hkept
  cases heffect with
  | access | run => exact absurd rfl hhost
  | idle | unanswered | pin => exact hkept
  | exporting he | repeating he => cases hs.symm.trans he
  | framing _ _ hprim =>
    cases (primStep_outstanding hsub hr).symm.trans hprim
    exact hkept
  | answered ha => cases ha.symm.trans (hsilent rfl)
  | reset => exact absurd rfl hrst
  | clock => rw [clockTick_frame]; exact hkept

/-! ## The end of a transmission -/

/-- The ways a transmission ends (R186, R190, R194, R198). -/
inductive TransmissionEnd (u : State) : State → Prop
  | cancelled (hr : u.slReq = false) : TransmissionEnd u (complete .cancelled u)
  | noFrame (hs : u.seqState = .exporting) (hrep : u.shadow.rep = 0) :
      TransmissionEnd u (complete .ok (emit .exported (activateLine u)))
  | lastFrame (hs : u.seqState = .repeating) (hrep : ¬u.pos.r + 1 < u.shadow.rep) :
      TransmissionEnd u (complete .ok { u with pos := { u.pos with r := u.pos.r + 1 } })
  | failed (hr : u.slReq = true) (rest : List Answer) : TransmissionEnd u (answerError { u with answers := rest })

theorem transmissionEnd_of_primStep {prim : Prim} {u t : State} (h : Coherent u) (hs : u.seqState = .framing)
    (ht : primStep prim u = .next t) (hidle : t.seqState = .idle) : TransmissionEnd u t := by
  rcases primStep_next ht with ⟨-, -, rfl⟩ | ⟨-, hr, -, rfl⟩ | ⟨-, -, -, -, rfl⟩ | ⟨hsub, -, rfl⟩ | ⟨k, -, -, -, rfl⟩
  · cases hs.symm.trans hidle
  · exact .cancelled hr
  · cases hs.symm.trans hidle
  · exact .cancelled (h.slReq_of_wait hsub)
  · rcases advance_cases prim (emit (.wait k u.shadow.proto) { u with tmr := 0 }) with ⟨-, he⟩ | ⟨-, -, he⟩ | ⟨-, -, he⟩ <;>
      rw [he] at hidle
    · cases hs.symm.trans hidle
    · cases hs.symm.trans hidle
    · cases hidle

theorem transmissionEnd_of_turnEffect {turn : Turn} {u t : State} (h : Coherent u) (hbusy : u.seqState ≠ .idle)
    (hrst : turn ≠ .rst) (heffect : TurnEffect u turn t) (hidle : t.seqState = .idle) : TransmissionEnd u t := by
  have hkept : t.seqState ≠ u.seqState := fun he => hbusy (he.symm.trans hidle)
  by_cases hhost : turn = .host
  · subst hhost
    exact absurd (by rw [heffect.host_frame hbusy]) hkept
  cases heffect with
  | access | run => exact absurd rfl hhost
  | idle | unanswered | pin => exact absurd rfl hkept
  | exporting hs =>
    have hr := h.slReq_of_ne_framing (by simp [hs])
    rcases exportStep_cases u with ⟨-, he⟩ | ⟨-, hrep, he⟩ | ⟨-, -, he⟩ <;> rw [he] at hidle ⊢
    · exact .cancelled hr
    · exact .noFrame hs hrep
    · cases hidle
  | framing hs _ hprim => exact transmissionEnd_of_primStep h hs hprim hidle
  | repeating hs =>
    have hr := h.slReq_of_ne_framing (by simp [hs])
    rcases repeatStep_cases u with ⟨-, he⟩ | ⟨-, -, he⟩ | ⟨-, hrep, he⟩ <;> rw [he] at hidle ⊢
    · exact .cancelled hr
    · cases hidle
    · exact .lastFrame hs hrep
  | answered _ hanswer =>
    rcases lineAnswer_next hanswer with ⟨-, rfl⟩ | ⟨hr, -, rfl⟩ | ⟨_, _, _, -, -, -, -, -, rfl⟩
    · exact absurd rfl hkept
    · exact .failed (u := u) hr _
    · exact absurd rfl hkept
  | reset => exact absurd rfl hrst
  | clock => exact absurd (by rw [clockTick_frame]) hkept

/-- Settles O12: each way of ending, at each STATE, keeps WRCNT and LINE, and the position but for the last frame. -/
theorem writesAtAnEarlyEndMatchThePosition : Obligations.WritesAtAnEarlyEndMatchThePosition := by
  intro s t h hrst hstep hidle
  have heffect := turnEffect_of_step hstep
  have hbegin := h.beginTurn
  rw [← beginTurn_seqState s, ← beginTurn_pos s, ← beginTurn_line s, ← beginTurn_shadow s]
  generalize nextTurn s = turn at heffect hrst
  generalize beginTurn s = u at *
  refine ⟨fun hs => ?framing, fun hs => ?repeating, fun hs => ?exporting⟩
  all_goals
    have hend := transmissionEnd_of_turnEffect hbegin (by simp [hs]) hrst heffect hidle
  case framing =>
    obtain ⟨-, hcount, -, -⟩ := hbegin.framing hs
    cases hend with
    | cancelled hr =>
      refine ⟨rfl, rfl, .inr rfl, ?_⟩
      simpa [WritesCounted, writesAt, frameWrites, hr] using hcount
    | noFrame he | lastFrame he => cases hs.symm.trans he
    | failed hr =>
      refine ⟨rfl, rfl, .inl rfl, ?_⟩
      simpa [WritesCounted, writesAt, frameWrites, hr] using hcount
  case repeating =>
    obtain ⟨⟨hrep, -, -⟩, hi, hph, hsub, hcount, -, -⟩ := hbegin.repeating hs
    have hframes : u.wrcnt.toNat = (u.pos.r.toNat + 1) * (4 * u.shadow.cw.len.toNat + 2) := by
      simp [WritesCounted, writesAt, frameWrites, hi, hph, hsub] at hcount
      rw [hcount]
      ring
    cases hend with
    | cancelled => exact ⟨rfl, .inl ⟨rfl, rfl, hframes⟩⟩
    | noFrame he => cases hs.symm.trans he
    | lastFrame _ hlast =>
      have hlen := toNat_add_one_of_lt hrep
      have hr : u.pos.r + 1 = u.shadow.rep := by
        apply BitVec.eq_of_toNat_eq
        have hle : ¬(u.pos.r + 1).toNat < u.shadow.rep.toNat := hlast
        have hlt : u.pos.r.toNat < u.shadow.rep.toNat := hrep
        omega
      refine ⟨rfl, .inr ⟨rfl, ?_, ?_⟩⟩
      · rw [← hr]
        rfl
      · rw [← hr, hlen]
        exact hframes
    | failed hr => cases hs.symm.trans (hbegin.request hr).1
  case exporting =>
    have hcount := hbegin.exporting hs
    cases hend with
    | cancelled => exact ⟨rfl, rfl, hcount, .inl rfl⟩
    | noFrame _ hrep => exact ⟨rfl, rfl, hcount, .inr ⟨rfl, hrep⟩⟩
    | lastFrame he => cases hs.symm.trans he
    | failed hr => cases hs.symm.trans (hbegin.request hr).1

end Sys2Proof.Machine
end

section
/-! The agents other than HOST do not depend on CW or ENCSTAT (R77, R204): each of their turns commutes with replacing both. -/

namespace Sys2Proof.Machine

/-- The state with another CW and ENCSTAT. -/
def withEncoder (c : Codeword) (e : EncStatus) (s : State) : State := { s with cw := c, encStat := e }

section Commute

variable {c : Codeword} {e : EncStatus}

theorem nextTurn_withEncoder (s : State) : nextTurn (withEncoder c e s) = nextTurn s := rfl

theorem requestCancel_withEncoder (s : State) : requestCancel (withEncoder c e s) = withEncoder c e (requestCancel s) :=
  (apply_ite (withEncoder c e) (s.seqState ≠ .idle) { s with cancelPend := true } s).symm

theorem sampleCancel_withEncoder (s : State) : sampleCancel (withEncoder c e s) = withEncoder c e (sampleCancel s) := by
  change (if s.cancelI = true then requestCancel (withEncoder c e s) else withEncoder c e s) = _
  rw [requestCancel_withEncoder]
  exact (apply_ite (withEncoder c e) (s.cancelI = true) (requestCancel s) s).symm

theorem beginTurn_withEncoder (s : State) : beginTurn (withEncoder c e s) = withEncoder c e (beginTurn s) :=
  sampleCancel_withEncoder { s with turns := s.turns.tail }

theorem exportStep_withEncoder (s : State) : exportStep (withEncoder c e s) = withEncoder c e (exportStep s) := by
  cases hc : s.cancelPend with
  | true =>
    rw [exportStep_of_cancel hc, exportStep_of_cancel (s := withEncoder c e s) hc]
    rfl
  | false =>
    by_cases hrep : s.shadow.rep = 0
    · rw [exportStep_of_rep_eq_zero hc hrep, exportStep_of_rep_eq_zero (s := withEncoder c e s) hc hrep]
      rfl
    · rw [exportStep_of_rep_ne_zero hc hrep, exportStep_of_rep_ne_zero (s := withEncoder c e s) hc hrep]
      rfl

theorem repeatStep_withEncoder (s : State) : repeatStep (withEncoder c e s) = withEncoder c e (repeatStep s) := by
  cases hc : s.cancelPend with
  | true =>
    rw [repeatStep_of_cancel hc, repeatStep_of_cancel (s := withEncoder c e s) hc]
    rfl
  | false =>
    by_cases hrep : s.pos.r + 1 < s.shadow.rep
    · rw [repeatStep_of_lt hc hrep, repeatStep_of_lt (s := withEncoder c e s) hc hrep]
      rfl
    · rw [repeatStep_of_not_lt hc hrep, repeatStep_of_not_lt (s := withEncoder c e s) hc hrep]
      rfl

theorem advance_withEncoder (prim : Prim) (s : State) : advance prim (withEncoder c e s) = withEncoder c e (advance prim s) := by
  by_cases hph : s.pos.ph < lastPhase prim
  · rw [advance_of_phase_lt hph, advance_of_phase_lt (s := withEncoder c e s) hph]
    rfl
  by_cases hi : s.pos.i < s.shadow.cw.len
  · rw [advance_of_lt hph hi, advance_of_lt (s := withEncoder c e s) hph hi]
    rfl
  · rw [advance_of_not_lt hph hi, advance_of_not_lt (s := withEncoder c e s) hph hi]
    rfl

theorem clockTick_withEncoder (s : State) : clockTick (withEncoder c e s) = withEncoder c e (clockTick s) :=
  (apply_ite (withEncoder c e) (s.seqState = .framing ∧ s.pos.sub = .wait) { s with tmr := s.tmr - 1 } s).symm

theorem primStep_withEncoder {prim : Prim} {s t : State} (h : primStep prim s = .next t) :
    primStep prim (withEncoder c e s) = .next (withEncoder c e t) := by
  rcases primStep_next h with ⟨hsub, hr, rfl⟩ | ⟨-, hr, hc, rfl⟩ | ⟨hsub, hr, hc, hph, rfl⟩ | ⟨hsub, hc, rfl⟩ |
    ⟨k, hsub, hc, hk, rfl⟩
  · exact primStep_outstanding hsub hr
  · exact primStep_cancel (.inr hr) hc
  · exact primStep_request hsub hr hc hph
  · exact primStep_cancel (.inl hsub) hc
  · refine (primStep_wait (s := withEncoder c e s) hsub hc hk).trans (congrArg _ ?_)
    exact advance_withEncoder prim (emit (.wait k s.shadow.proto) { s with tmr := 0 })

theorem lineAnswer_withEncoder {a : Answer} {s t : State} (h : lineAnswer a s = .next t) :
    lineAnswer a (withEncoder c e s) = .next (withEncoder c e t) := by
  rcases lineAnswer_next h with ⟨hr, rfl⟩ | ⟨hr, rfl, rfl⟩ | ⟨prim, row, k, hr, rfl, hprim, hrow, hk, rfl⟩
  · exact lineAnswer_ignored a hr
  · exact lineAnswer_error hr
  · exact lineAnswer_ok hr hprim hrow hk

end Commute

/-- Settles O56: the turn of each agent but HOST, at the state with both registers replaced. -/
theorem transmissionIgnoresTheEncoderRegisters : Obligations.TransmissionIgnoresTheEncoderRegisters := by
  intro s t c e hhost hrst hstep
  change step (withEncoder c e s) = .next (withEncoder c e t)
  have heffect := turnEffect_of_step hstep
  rw [step_eq, nextTurn_withEncoder, beginTurn_withEncoder]
  generalize nextTurn s = turn at heffect hhost hrst ⊢
  generalize beginTurn s = u at heffect ⊢
  cases heffect with
  | access | run => exact absurd rfl hhost
  | reset => exact absurd rfl hrst
  | idle hs => exact seqTurn_of_idle (s := withEncoder c e _) hs
  | exporting hs => exact (seqTurn_of_exporting (s := withEncoder c e _) hs).trans (congrArg _ (exportStep_withEncoder _))
  | framing hs hprim hprimStep =>
    exact (seqTurn_framing (s := withEncoder c e _) hs hprim).trans (primStep_withEncoder hprimStep)
  | repeating hs => exact (seqTurn_of_repeating (s := withEncoder c e _) hs).trans (congrArg _ (repeatStep_withEncoder _))
  | unanswered ha => exact lineTurn_of_nil (s := withEncoder c e _) ha
  | answered ha hanswer => exact (lineTurn_of_cons (s := withEncoder c e _) ha).trans (lineAnswer_withEncoder hanswer)
  | pin => rfl
  | clock => exact congrArg _ (clockTick_withEncoder _)

end Sys2Proof.Machine
end

section
/-! The lengths of a frame (R168) and the durations of its waits (R167, R169): sums over the primitives of the frame. -/

namespace Sys2Proof.Machine

/-! ## Units and writes of a trace -/

theorem traceUnits_append (a b : List Event) : traceUnits (a ++ b) = traceUnits a + traceUnits b := by simp [traceUnits]

theorem traceWrites_append (a b : List Event) : traceWrites (a ++ b) = traceWrites a + traceWrites b := by simp [traceWrites]

theorem traceUnits_pairEvents (p : BitVec 4) (mark space : Nat) : traceUnits (pairEvents p (mark, space)) = mark + space := by
  simp [traceUnits, pairEvents, eventUnits]

theorem traceWrites_pairEvents (p : BitVec 4) (pair : Nat × Nat) : traceWrites (pairEvents p pair) = 2 := rfl

/-- The segment of a symbol is two pairs (R161 to R163). -/
theorem exists_pairs_of_symbol (row : ProtocolRow) (p : BitVec 4) (x : Symbol) :
    ∃ m₁ s₁ m₂ s₂, m₁ + s₁ = 4 ∧ m₂ + s₂ = 4 ∧
      segment row p (.sym x) = pairEvents p (m₁, s₁) ++ pairEvents p (m₂, s₂) := by
  cases x <;> exact ⟨_, _, _, _, rfl, rfl, rfl⟩

/-- The segment of Sync is one pair (R164). -/
theorem segment_sync (row : ProtocolRow) (p : BitVec 4) : segment row p .sync = pairEvents p (1, row.syncRatio) := rfl

theorem traceUnits_segment_sym (row : ProtocolRow) (p : BitVec 4) (x : Symbol) : traceUnits (segment row p (.sym x)) = 8 := by
  obtain ⟨m₁, s₁, m₂, s₂, h₁, h₂, hseg⟩ := exists_pairs_of_symbol row p x
  rw [hseg, traceUnits_append, traceUnits_pairEvents, traceUnits_pairEvents, h₁, h₂]

theorem traceWrites_segment_sym (row : ProtocolRow) (p : BitVec 4) (x : Symbol) : traceWrites (segment row p (.sym x)) = 4 := by
  obtain ⟨m₁, s₁, m₂, s₂, -, -, hseg⟩ := exists_pairs_of_symbol row p x
  rw [hseg, traceWrites_append, traceWrites_pairEvents, traceWrites_pairEvents]

/-! ## Frames -/

theorem frameEvents_nil (row : ProtocolRow) (p : BitVec 4) : frameEvents row p [] = segment row p .sync := by
  simp [frameEvents, framePrims]

theorem frameEvents_cons (row : ProtocolRow) (p : BitVec 4) (x : Symbol) (w : List Symbol) :
    frameEvents row p (x :: w) = segment row p (.sym x) ++ frameEvents row p w := by
  simp [frameEvents, framePrims]

theorem traceUnits_frameEvents (row : ProtocolRow) (p : BitVec 4) (w : List Symbol) :
    traceUnits (frameEvents row p w) = 8 * w.length + 1 + row.syncRatio := by
  induction w with
  | nil => rw [frameEvents_nil, segment_sync, traceUnits_pairEvents, List.length_nil]
  | cons x w ih =>
    rw [frameEvents_cons, traceUnits_append, traceUnits_segment_sym, ih, List.length_cons]
    omega

theorem traceWrites_frameEvents (row : ProtocolRow) (p : BitVec 4) (w : List Symbol) :
    traceWrites (frameEvents row p w) = 4 * w.length + 2 := by
  induction w with
  | nil => rw [frameEvents_nil, segment_sync, traceWrites_pairEvents, List.length_nil]
  | cons x w ih =>
    rw [frameEvents_cons, traceWrites_append, traceWrites_segment_sym, ih, List.length_cons]
    omega

/-- Settles O59: by induction on the codeword, a symbol adding 8 units and 4 writes, Sync the rest. -/
theorem frameLengthAndWrites : Obligations.FrameLengthAndWrites := fun p row w =>
  ⟨traceUnits_frameEvents row p w, traceWrites_frameEvents row p w, by simp [framePrims]⟩

/-! ## Durations -/

/-- The cycles of a wait are an exact product (R167): the division by 10^6 leaves nothing over. -/
theorem waitCycles_eq (k : Nat) (row : ProtocolRow) : waitCycles k row = nominalUs row k * Config.clkMHz := by
  have hcancel : ∀ a b c : Nat, 0 < c → a * (b * c) / c = a * b := fun a b c hc => by
    rw [← Nat.mul_assoc, Nat.mul_div_cancel _ hc]
  exact hcancel _ _ _ (by decide)

/-- Settles O60: the lateness is a remainder by JITTER_US + 1. -/
theorem waitDurationsAreBounded : Obligations.WaitDurationsAreBounded := by
  intro row n k
  have hlate : Config.lateness n % (Config.jitterUs + 1) ≤ Config.jitterUs := Nat.le_of_lt_succ (Nat.mod_lt _ (Nat.succ_pos _))
  exact ⟨Nat.le_add_right .., Nat.add_le_add_left hlate _, waitCycles_eq k row⟩

end Sys2Proof.Machine
end

section
/-! Runs of several steps in which LINE answers Ok and nothing is cancelled (R160 to R164, R195, R202): a phase, a pair of
phases, a primitive, a frame and a whole transmission, each said once as the state it ends in. -/

namespace Sys2Proof.Machine

/-! ## Runs -/

theorem runSteps_succ {s t : State} (k : Nat) (h : step s = .next t) : runSteps (k + 1) s = runSteps k t := by
  rw [runSteps, h]

theorem runSteps_trans {a b : Nat} {s t u : State} (h₁ : runSteps a s = .next t) (h₂ : runSteps b t = .next u) :
    runSteps (a + b) s = .next u := by
  induction a generalizing s with
  | zero =>
    obtain rfl := Host.Outcome.next.inj h₁
    rwa [Nat.zero_add]
  | succ a ih =>
    cases hstep : step s with
    | next v =>
      rw [runSteps_succ a hstep] at h₁
      rw [Nat.succ_add, runSteps_succ (a + b) hstep, ih h₁]
    | fault _ | refused _ => simp [runSteps, hstep] at h₁

theorem runSteps_three {s t u v : State} (h₁ : step s = .next t) (h₂ : step t = .next u) (h₃ : step u = .next v) :
    runSteps 3 s = .next v := by
  rw [runSteps_succ 2 h₁, runSteps_succ 1 h₂, runSteps_succ 0 h₃, runSteps]

/-! ## What was sent -/

/-- The machine once n line writes were answered Ok, the last of them of level l, and their waits have ended: events are
those of the writes and waits, rest and as the turns and answers not yet taken. -/
def sent (l : Level) (n : Nat) (events : List Event) (rest : List Turn) (as : List Answer) (s : State) : State :=
  { s with
    wrcnt := s.wrcnt + BitVec.ofNat 32 n, line := l, pin := some l, slVal := l, slReq := false, tmr := 0
    trace := s.trace ++ events, turns := rest, answers := as }

/-- What is sent one after the other adds up, whatever position the second part starts from. -/
theorem sent_sent (l l' : Level) (n m : Nat) (a b : List Event) (rest rest' : List Turn) (as as' : List Answer) (q : SeqState)
    (pos : Position) (s : State) :
    sent l m b rest as { sent l' n a rest' as' s with seqState := q, pos := pos } =
      sent l (n + m) (a ++ b) rest as { s with seqState := q, pos := pos } := by
  simp only [sent, BitVec.ofNat_add, BitVec.add_assoc, List.append_assoc]

/-! ## A phase -/

/-- The sequencer is to begin a phase of the primitive prim, and nothing cancels the transmission. -/
structure Sending (prim : Prim) (row : ProtocolRow) (s : State) : Prop where
  seqState : s.seqState = .framing
  sub : s.pos.sub = .write
  slReq : s.slReq = false
  cancelPend : s.cancelPend = false
  cancelI : s.cancelI = false
  currentPrim : currentPrim s = some prim
  row : protocolRow s.shadow.proto = some row

section Phase

variable {prim : Prim} {row : ProtocolRow} {s : State} {k : Nat} {rest : List Turn} {as : List Answer}

theorem beginTurn_of_turns {t : Turn} (hpin : s.cancelI = false) (hturns : s.turns = t :: rest) :
    beginTurn s = { s with turns := rest } := by
  rw [beginTurn_of_pin_low s hpin, hturns, List.tail_cons]

theorem nextTurn_of_turns {t : Turn} (hturns : s.turns = t :: rest) : nextTurn s = t := by
  rw [nextTurn, hturns]

/-- The first turn of a phase (R189). -/
theorem step_request (h : Sending prim row s) (hph : ¬lastPhase prim < s.pos.ph) (hturns : s.turns = .seq :: rest) :
    step s = .next (issueRequest { s with turns := rest }) := by
  rw [step_seq_framing (nextTurn_of_turns hturns) h.seqState h.currentPrim, beginTurn_of_turns h.cancelI hturns]
  exact primStep_request h.sub h.slReq h.cancelPend hph

/-- The second (R189). -/
theorem step_answered (hr : s.slReq = true) (hpin : s.cancelI = false) (hprim : currentPrim s = some prim)
    (hrow : protocolRow s.shadow.proto = some row) (hk : unitsOf prim s.shadow.proto s.pos.ph = .ok k)
    (hturns : s.turns = .line :: rest) (ha : s.answers = .ok :: as) :
    step s = .next (answerOk (waitCycles k row) { s with turns := rest, answers := as }) := by
  rw [step_line_ok (nextTurn_of_turns hturns) hr ha hprim hrow hk, beginTurn_of_turns hpin hturns]

/-- The third (R191). -/
theorem step_waited (hs : s.seqState = .framing) (hsub : s.pos.sub = .wait) (hc : s.cancelPend = false)
    (hpin : s.cancelI = false) (hprim : currentPrim s = some prim) (hk : unitsOf prim s.shadow.proto s.pos.ph = .ok k)
    (hturns : s.turns = .seq :: rest) :
    step s = .next (advance prim (emit (.wait k s.shadow.proto) { s with tmr := 0, turns := rest })) := by
  rw [step_seq_framing (nextTurn_of_turns hturns) hs hprim, beginTurn_of_turns hpin hturns]
  exact primStep_wait hsub hc hk

/-- One phase is the request, LINE's answer and the wait (R189, R191). -/
theorem runSteps_phase {l : Level} (h : Sending prim row s) (hph : ¬lastPhase prim < s.pos.ph) (hlevel : levelOf s.pos.ph = l)
    (hk : unitsOf prim s.shadow.proto s.pos.ph = .ok k) (hturns : s.turns = phaseTurns ++ rest) (ha : s.answers = .ok :: as) :
    runSteps 3 s = .next (advance prim (sent l 1 [.set l .ok, .wait k s.shadow.proto] rest as
      { s with pos := { s.pos with sub := .wait } })) := by
  refine runSteps_three (step_request h hph hturns) (step_answered rfl h.cancelI h.currentPrim h.row hk rfl ha)
    (Eq.trans (step_waited h.seqState rfl h.cancelPend h.cancelI h.currentPrim hk rfl) ?_)
  simp [emit, answerOk, issueRequest, sent, hlevel]

/-- The turns of n more phases. -/
theorem phases_succ (n : Nat) (rest : List Turn) :
    (List.replicate (n + 1) phaseTurns).flatten ++ rest = phaseTurns ++ ((List.replicate n phaseTurns).flatten ++ rest) := by
  rw [List.replicate_succ, List.flatten_cons, List.append_assoc]

theorem phases_add (n m : Nat) (rest : List Turn) :
    (List.replicate (n + m) phaseTurns).flatten ++ rest =
      (List.replicate n phaseTurns).flatten ++ ((List.replicate m phaseTurns).flatten ++ rest) := by
  rw [List.replicate_add, List.flatten_append, List.append_assoc]

/-- A (mark, space) pair is an even phase and the odd one after it (R160). -/
theorem runSteps_pair {ph ph' : BitVec 2} {mark space : Nat} (h : Sending prim row s) (hph : s.pos.ph = ph)
    (hnext : ph + 1 = ph') (hlast : ph < lastPhase prim) (hhigh : levelOf ph = .high) (hlow : levelOf ph' = .low)
    (hmark : unitsOf prim s.shadow.proto ph = .ok mark) (hspace : unitsOf prim s.shadow.proto ph' = .ok space)
    (hturns : s.turns = (List.replicate 2 phaseTurns).flatten ++ rest) (ha : s.answers = List.replicate 2 .ok ++ as) :
    runSteps 6 s = .next (advance prim (sent .low 2 (pairEvents s.shadow.proto (mark, space)) rest as
      { s with pos := { s.pos with ph := ph', sub := .wait } })) := by
  subst hph hnext
  have hlast' : ¬lastPhase prim < s.pos.ph + 1 := by bv_omega
  rw [phases_succ 1] at hturns
  refine runSteps_trans ((runSteps_phase h (by bv_omega) hhigh hmark hturns ha).trans (congrArg _ (advance_of_phase_lt hlast)))
    (Eq.trans (runSteps_phase (rest := rest) (as := as)
      ⟨h.seqState, rfl, rfl, h.cancelPend, h.cancelI, h.currentPrim, h.row⟩ hlast' hlow hspace (phases_succ 0 rest) rfl) ?_)
  exact congrArg (fun u => Host.Outcome.next (advance prim u)) (sent_sent .low .high 1 1 _ _ rest _ as _ s.seqState
    { s.pos with ph := s.pos.ph + 1, sub := .wait } s)

end Phase

/-! ## A primitive -/

section Primitive

variable {row : ProtocolRow} {s : State} {rest : List Turn} {as : List Answer}

/-- The cells of a symbol's row are its pairs (R188). -/
theorem exists_units_of_symbol (row : ProtocolRow) (p : BitVec 4) (x : Symbol) :
    ∃ m₁ s₁ m₂ s₂, unitsOf (.sym x) p 0 = .ok m₁ ∧ unitsOf (.sym x) p 1 = .ok s₁ ∧ unitsOf (.sym x) p 2 = .ok m₂ ∧
      unitsOf (.sym x) p 3 = .ok s₂ ∧ segment row p (.sym x) = pairEvents p (m₁, s₁) ++ pairEvents p (m₂, s₂) := by
  cases x <;> exact ⟨_, _, _, _, rfl, rfl, rfl, rfl, rfl⟩

/-- A symbol is two pairs, after which the position is that of the next primitive (R161 to R163, R192). -/
theorem runSteps_sym {x : Symbol} (h : Sending (.sym x) row s) (hph : s.pos.ph = 0) (hi : s.pos.i < s.shadow.cw.len)
    (hturns : s.turns = (List.replicate 4 phaseTurns).flatten ++ rest) (ha : s.answers = List.replicate 4 .ok ++ as) :
    runSteps 12 s = .next (sent .low 4 (segment row s.shadow.proto (.sym x)) rest as
      { s with pos := { s.pos with i := s.pos.i + 1, ph := 0, sub := .write } }) := by
  obtain ⟨m₁, s₁, m₂, s₂, hm₁, hs₁, hm₂, hs₂, hseg⟩ := exists_units_of_symbol row s.shadow.proto x
  rw [phases_add 2 2] at hturns
  have hfirst : runSteps 6 s = .next (sent .low 2 (pairEvents s.shadow.proto (m₁, s₁))
      ((List.replicate 2 phaseTurns).flatten ++ rest) (List.replicate 2 .ok ++ as)
      { s with pos := { s.pos with ph := 2, sub := .write } }) :=
    (runSteps_pair h hph rfl (by decide : (0 : BitVec 2) < 3) rfl rfl hm₁ hs₁ hturns ha).trans <|
      congrArg _ (advance_of_phase_lt (by exact (by decide : (1 : BitVec 2) < 3)))
  refine runSteps_trans hfirst (Eq.trans (runSteps_pair (ph := 2) (ph' := 3) (rest := rest) (as := as)
      ⟨h.seqState, rfl, rfl, h.cancelPend, h.cancelI, h.currentPrim, h.row⟩ rfl rfl
      (by decide : (2 : BitVec 2) < 3) rfl rfl hm₂ hs₂ rfl rfl) ?_)
  rw [advance_of_lt (by exact (by decide : ¬(3 : BitVec 2) < 3)) (by exact hi), hseg]
  exact congrArg Host.Outcome.next (sent_sent .low .low 2 2 _ _ rest rest as as s.seqState
    { s.pos with i := s.pos.i + 1, ph := 0, sub := .write } s)

/-- Sync is one pair, after which the sequencer is in Repeating (R164, R192). -/
theorem runSteps_sync (h : Sending .sync row s) (hph : s.pos.ph = 0) (hi : ¬s.pos.i < s.shadow.cw.len)
    (hturns : s.turns = (List.replicate 2 phaseTurns).flatten ++ rest) (ha : s.answers = List.replicate 2 .ok ++ as) :
    runSteps 6 s = .next (sent .low 2 (segment row s.shadow.proto .sync) rest as
      { s with seqState := .repeating, pos := { s.pos with ph := 1, sub := .wait } }) := by
  exact (runSteps_pair h hph rfl (by decide) rfl rfl (unitsOf_sync h.row 0) (unitsOf_sync h.row 1) hturns ha).trans <|
    congrArg _ (advance_of_not_lt (by exact (by decide : ¬(1 : BitVec 2) < 1)) (by exact hi))

end Primitive

theorem currentPrim_eq_sync_iff {s : State} : currentPrim s = some .sync ↔ ¬s.pos.i < s.shadow.cw.len := by
  unfold currentPrim
  split_ifs with hi <;> simp [hi]

/-- Settles O57: the run of a symbol, and that of Sync. -/
theorem primitiveSendsItsSegment : Obligations.PrimitiveSendsItsSegment := by
  intro s prim row n as rest hs hph hsub hr hc hpin _ hprim hrow hn hturns ha
  have h : Sending prim row s := ⟨hs, hsub, hr, hc, hpin, hprim, hrow⟩
  cases prim with
  | sym x =>
    obtain rfl : n = 4 := hn
    have hi : s.pos.i < s.shadow.cw.len := by
      by_contra hi
      have hsync := currentPrim_eq_sync_iff.mpr hi
      simp [hprim] at hsync
    exact ⟨_, runSteps_sym h hph hi hturns ha, rfl, rfl, rfl, rfl, rfl, rfl, rfl, nofun, fun _ => ⟨hs, rfl⟩⟩
  | sync =>
    obtain rfl : n = 2 := hn
    exact ⟨_, runSteps_sync h hph (currentPrim_eq_sync_iff.mp hprim) hturns ha, rfl, rfl, rfl, rfl, rfl, rfl, rfl,
      fun _ => ⟨rfl, rfl⟩, fun hne => absurd rfl hne⟩

end Sys2Proof.Machine
end

section
/-! A frame as the run of its primitives, and a whole transmission as the run of its frames (R193 to R195, R202). -/

namespace Sys2Proof.Machine

/-! ## The symbols of a codeword -/

theorem mapM_eq_some_iff {α β : Type} {f : α → Option β} {l : List α} {w : List β} :
    l.mapM f = some w ↔ l.map f = w.map some := by
  induction l generalizing w with
  | nil => cases w <;> simp
  | cons a l ih =>
    cases w with
    | nil => simp [List.mapM_cons, Option.bind_eq_some_iff]
    | cons b w => simp [List.mapM_cons, Option.bind_eq_some_iff, ← ih]

theorem length_of_symbols {c : Codeword} {w : List Symbol} (h : c.symbols = some w) : w.length = c.len.toNat := by
  have hlength := congrArg List.length (mapM_eq_some_iff.mp h)
  rw [List.length_map, List.length_map, codes_length] at hlength
  exact hlength.symm

theorem symbolOfCode_of_symbols {c : Codeword} {w : List Symbol} (h : c.symbols = some w) {i : Nat} (hi : i < c.len.toNat) :
    symbolOfCode (c.slot i) = w[i]? := by
  have hget := congrArg (fun l : List (Option Symbol) => l[i]?) (mapM_eq_some_iff.mp h)
  have hw : i < w.length := by rwa [length_of_symbols h]
  simpa [Codeword.codes, hi, hw] using hget

/-- The primitive at a position is that of the symbol there, or Sync after the last one (R188). -/
theorem currentPrim_of_symbols {s : State} {w : List Symbol} (h : s.shadow.cw.symbols = some w) :
    currentPrim s = some ((w[s.pos.i.toNat]?).elim .sync .sym) := by
  unfold currentPrim
  split_ifs with hi
  · have hw : s.pos.i.toNat < w.length := by rw [length_of_symbols h]; exact hi
    rw [symbolOfCode_of_symbols h hi, List.getElem?_eq_getElem hw]
    rfl
  · have hw : w.length ≤ s.pos.i.toNat := by rw [length_of_symbols h]; exact Nat.le_of_not_lt hi
    rw [List.getElem?_eq_none hw]
    rfl

/-! ## A frame -/

/-- The sequencer is to begin a primitive of the codeword w, and nothing cancels the transmission. -/
structure AtPrimitive (w : List Symbol) (row : ProtocolRow) (s : State) : Prop where
  seqState : s.seqState = .framing
  ph : s.pos.ph = 0
  sub : s.pos.sub = .write
  slReq : s.slReq = false
  cancelPend : s.cancelPend = false
  cancelI : s.cancelI = false
  symbols : s.shadow.cw.symbols = some w
  row : protocolRow s.shadow.proto = some row

theorem AtPrimitive.sending {w : List Symbol} {row : ProtocolRow} {s : State} {prim : Prim} (h : AtPrimitive w row s)
    (hprim : (w[s.pos.i.toNat]?).elim .sync .sym = prim) : Sending prim row s :=
  ⟨h.seqState, h.sub, h.slReq, h.cancelPend, h.cancelI, (currentPrim_of_symbols h.symbols).trans (congrArg some hprim), h.row⟩

/-- The rest of a frame, from the symbols w' that are still to send (R193). -/
theorem runSteps_frame {w w' : List Symbol} {row : ProtocolRow} {s : State} {rest : List Turn} {as : List Answer}
    (h : AtPrimitive w row s) (hi : s.pos.i ≤ s.shadow.cw.len) (hw' : w.drop s.pos.i.toNat = w')
    (hturns : s.turns = (List.replicate (frameWrites w'.length) phaseTurns).flatten ++ rest)
    (ha : s.answers = List.replicate (frameWrites w'.length) .ok ++ as) :
    runSteps (3 * frameWrites w'.length) s = .next (sent .low (frameWrites w'.length) (frameEvents row s.shadow.proto w') rest as
      { s with seqState := .repeating, pos := { s.pos with i := s.shadow.cw.len, ph := 1, sub := .wait } }) := by
  have hlength := length_of_symbols h.symbols
  induction w' generalizing s with
  | nil =>
    have hend : s.shadow.cw.len.toNat ≤ s.pos.i.toNat := hlength ▸ List.drop_eq_nil_iff.mp hw'
    have hlen : s.pos.i = s.shadow.cw.len := BitVec.le_antisymm hi hend
    have hprim : (w[s.pos.i.toNat]?).elim Prim.sync Prim.sym = .sync := by rw [List.getElem?_eq_none (hlength ▸ hend)]; rfl
    rw [frameEvents_nil, ← hlen]
    exact runSteps_sync (h.sending hprim) h.ph (Nat.not_lt.mpr hend) hturns ha
  | cons x w' ih =>
    have hx : w[s.pos.i.toNat]? = some x := by rw [← List.head?_drop, hw']; rfl
    have hnext : w.drop (s.pos.i.toNat + 1) = w' := by rw [← List.tail_drop, hw', List.tail_cons]
    have hlt : s.pos.i < s.shadow.cw.len := by
      obtain ⟨hin, -⟩ := List.getElem?_eq_some_iff.mp hx
      exact BitVec.lt_def.mpr (hlength ▸ hin)
    have hprim : (w[s.pos.i.toNat]?).elim Prim.sync Prim.sym = .sym x := by rw [hx]; rfl
    have hi' := toNat_add_one_of_lt hlt
    have hwrites : frameWrites (x :: w').length = 4 + frameWrites w'.length := by
      simp only [frameWrites, List.length_cons]
      omega
    rw [hwrites, phases_add] at hturns
    rw [hwrites, List.replicate_add, List.append_assoc] at ha
    rw [hwrites, Nat.mul_add, frameEvents_cons]
    refine runSteps_trans (runSteps_sym (h.sending hprim) h.ph hlt hturns ha) (Eq.trans (ih
      ⟨h.seqState, rfl, rfl, rfl, h.cancelPend, h.cancelI, h.symbols, h.row⟩ ?inside (by rw [← hnext, ← hi']; rfl)
      rfl rfl hlength)
      (congrArg Host.Outcome.next (sent_sent .low .low 4 _ _ _ rest rest as as .repeating
        { s.pos with i := s.shadow.cw.len, ph := 1, sub := .wait } s)))
    case inside => exact hi'.trans_le hlt

/-! ## The frames of a transmission -/

theorem frames_succ (n m : Nat) (rest : List Turn) :
    (List.replicate (m + 1) (frameTurns n)).flatten ++ rest =
      (List.replicate (frameWrites n) phaseTurns).flatten ++ (.seq :: ((List.replicate m (frameTurns n)).flatten ++ rest)) := by
  rw [List.replicate_succ, List.flatten_cons, frameTurns]
  simp

/-- The step between frames (R194). -/
theorem step_repeating {s : State} {rest : List Turn} (hs : s.seqState = .repeating) (hpin : s.cancelI = false)
    (hturns : s.turns = .seq :: rest) : step s = .next (repeatStep { s with turns := rest }) := by
  rw [step_seq_repeating (nextTurn_of_turns hturns) hs, beginTurn_of_turns hpin hturns]

/-- A whole frame and the step after it. -/
theorem runSteps_whole_frame {w : List Symbol} {row : ProtocolRow} {s : State} {rest : List Turn} {as : List Answer}
    (h : AtPrimitive w row s) (hi : s.pos.i = 0)
    (hturns : s.turns = (List.replicate (frameWrites w.length) phaseTurns).flatten ++ (.seq :: rest))
    (ha : s.answers = List.replicate (frameWrites w.length) .ok ++ as) :
    runSteps (3 * frameWrites w.length + 1) s = .next (repeatStep (sent .low (frameWrites w.length)
      (frameEvents row s.shadow.proto w) rest as
      { s with seqState := .repeating, pos := { s.pos with i := s.shadow.cw.len, ph := 1, sub := .wait } })) :=
  runSteps_trans (runSteps_frame (w' := w) h (by rw [hi]; exact Nat.zero_le _) (by rw [hi]; rfl) hturns ha)
    (runSteps_succ 0 (step_repeating rfl h.cancelI rfl))

/-- The frames still to send, m after the one begun, and the end of the transmission (R194, R195). -/
theorem runSteps_frames {w : List Symbol} {row : ProtocolRow} {s : State} {m : Nat} {rest : List Turn} {as : List Answer}
    (h : AtPrimitive w row s) (hi : s.pos.i = 0) (hr : s.pos.r.toNat + (m + 1) = s.shadow.rep.toNat)
    (hturns : s.turns = (List.replicate (m + 1) (frameTurns w.length)).flatten ++ rest)
    (ha : s.answers = List.replicate ((m + 1) * frameWrites w.length) .ok ++ as) :
    runSteps ((m + 1) * (3 * frameWrites w.length + 1)) s = .next (complete .ok (sent .low ((m + 1) * frameWrites w.length)
      (List.replicate (m + 1) (frameEvents row s.shadow.proto w)).flatten rest as
      { s with seqState := .repeating, pos := { r := s.shadow.rep, i := s.shadow.cw.len, ph := 1, sub := .wait } })) := by
  induction m generalizing s with
  | zero =>
    have hlt : s.pos.r < s.shadow.rep := BitVec.lt_def.mpr (by omega)
    have hlast : s.pos.r + 1 = s.shadow.rep := BitVec.eq_of_toNat_eq ((toNat_add_one_of_lt hlt).trans hr)
    rw [frames_succ] at hturns
    simp only [Nat.zero_add, Nat.one_mul] at ha ⊢
    rw [List.replicate_one, List.flatten_singleton, ← hlast]
    exact (runSteps_whole_frame h hi hturns ha).trans
      (congrArg _ (repeatStep_of_not_lt h.cancelPend (by exact hlast ▸ BitVec.lt_irrefl _)))
  | succ m ih =>
    have hlt : s.pos.r < s.shadow.rep := BitVec.lt_def.mpr (by omega)
    have hr' := toNat_add_one_of_lt hlt
    have hmore : s.pos.r + 1 < s.shadow.rep := BitVec.lt_def.mpr (by omega)
    rw [frames_succ] at hturns
    rw [Nat.succ_mul (m + 1), Nat.add_comm, List.replicate_add, List.append_assoc] at ha
    rw [Nat.succ_mul (m + 1), Nat.succ_mul (m + 1), Nat.add_comm _ (3 * _ + 1), Nat.add_comm _ (frameWrites _),
      List.replicate_succ, List.flatten_cons]
    have hframe := (runSteps_whole_frame h hi hturns ha).trans (congrArg _ (repeatStep_of_lt h.cancelPend (by exact hmore)))
    refine runSteps_trans hframe (Eq.trans (ih ⟨rfl, rfl, rfl, rfl, h.cancelPend, h.cancelI, h.symbols, h.row⟩ rfl
      (by change (s.pos.r + 1).toNat + (m + 1) = s.shadow.rep.toNat; omega) rfl rfl) ?_)
    exact congrArg (fun u => Host.Outcome.next (complete .ok u)) (sent_sent .low .low (frameWrites w.length) _ _ _ rest rest as as
      .repeating { r := s.shadow.rep, i := s.shadow.cw.len, ph := 1, sub := .wait } s)

/-! ## A transmission -/

theorem length_transmissionTurns (n k : Nat) : (transmissionTurns n k).length = 1 + k * (3 * frameWrites n + 1) := by
  simp [transmissionTurns, frameTurns, phaseTurns, Nat.mul_comm, Nat.add_comm]

/-- The write count of a transmission fits its register (R40). -/
theorem writes_lt {w : List Symbol} {sh : Shadow} (h : sh.cw.symbols = some w) :
    sh.rep.toNat * frameWrites w.length < 2 ^ 32 := by
  have hrep := sh.rep.isLt
  have hlen := sh.cw.len.isLt
  have hwrites : frameWrites w.length ≤ 126 := by
    rw [frameWrites, length_of_symbols h]
    omega
  have hmul := Nat.mul_le_mul (Nat.le_of_lt hrep) hwrites
  omega

/-- The Exporting step with no cancel at hand (R186). -/
theorem step_exporting {s : State} {rest : List Turn} (hs : s.seqState = .exporting) (hpin : s.cancelI = false)
    (hturns : s.turns = .seq :: rest) : step s = .next (exportStep { s with turns := rest }) := by
  rw [step_seq_exporting (nextTurn_of_turns hturns) hs, beginTurn_of_turns hpin hturns]

/-- Settles O58: no frame, or one and the rest of them. -/
theorem transmissionSendsItsFrames : Obligations.TransmissionSendsItsFrames := by
  intro s w row k as rest hs hcount hr hc hpin hw hrow hk hturns ha
  have hfit := writes_lt (sh := s.shadow) hw
  have hexport := step_exporting hs hpin hturns
  rw [hk] at hfit
  rw [length_transmissionTurns, Nat.add_comm]
  cases k with
  | zero =>
    have hrep : s.shadow.rep = 0 := BitVec.eq_of_toNat_eq hk
    rw [exportStep_of_rep_eq_zero (by exact hc) (by exact hrep)] at hexport
    rw [Nat.zero_mul] at ha ⊢
    refine ⟨_, runSteps_succ 0 hexport, rfl, rfl, rfl, rfl, ?_, rfl, rfl, ha, nofun,
      fun _ => ⟨rfl, rfl⟩⟩
    rw [Nat.zero_mul]
    exact congrArg BitVec.toNat hcount
  | succ m =>
    have hrep : s.shadow.rep ≠ 0 := fun h0 => by rw [h0] at hk; exact absurd hk (by simp)
    rw [exportStep_of_rep_ne_zero (by exact hc) (by exact hrep)] at hexport
    refine ⟨_, (runSteps_succ _ hexport).trans (runSteps_frames (m := m) (rest := rest) (as := as)
      ⟨rfl, rfl, rfl, hr, hc, hpin, hw, hrow⟩ rfl ?first rfl ha), rfl, rfl, rfl, ?trace, ?writes, rfl, rfl, rfl,
      fun _ => ⟨hk, rfl⟩, nofun⟩
    case first =>
      change 0 + (m + 1) = s.shadow.rep.toNat
      omega
    case trace => exact List.append_assoc ..
    case writes =>
      change (s.wrcnt + BitVec.ofNat 32 _).toNat = _
      rw [hcount, zero_add, BitVec.toNat_ofNat, Nat.mod_eq_of_lt hfit]

end Sys2Proof.Machine
end
